-- ==== Sys2Proof/Word.lean ====
section
/-! DEFINITION. The widths of the block: register values, request words, axis values and scaled values
(00_scope.md R10 and R11, 10_state.md R32, 43_conversion.md R181 and R187). -/

namespace Sys2Proof

/-- One register value: `u8` of 00_scope.md R10 and R11. -/
abbrev Byte := BitVec 8

/-- One request word of 32 bits (30_encoding.md R80). -/
abbrev Word := BitVec 32

/-- `i16`: two's complement of 16 bits (00_scope.md R11), the width of a raw axis value (43_conversion.md R181). -/
abbrev I16 := BitVec 16

/-- `i32`: two's complement of 32 bits (00_scope.md R11), the width of a scaled value (43_conversion.md R187). -/
abbrev I32 := BitVec 32

end Sys2Proof
end

