-- ==== Sys2Proof/Machine/Ports.lean ====
section
/-! DEFINITION. The vocabulary of the block's four ports (10_state.md R30 to R33): requests, responses, bus
transactions with their answers, delays, and the trace that records them. -/

namespace Sys2Proof

/-- What a `BUS_ERROR` carries: the fault the bus port gave, "passed through unchanged" (60_exceptions.md R201).
The spec leaves the type to the model (D28): a token that no meaning looks inside. DESIGN CHOICE, log 4. -/
structure BusErr where
  tag : Nat
  deriving DecidableEq, Repr, Inhabited

/-- The answer of the bus port to one transaction (10_state.md R30): `Ok` with what it delivers, or `Err(e)`. -/
inductive Answer (α : Type) where
  | ok (a : α)
  | err (e : BusErr)
  deriving DecidableEq, Repr

/-- What the host presents on the request port (10_state.md R32): a 32-bit word and the payload bytes
(30_encoding.md R80 and R86). -/
structure Request where
  word : Word
  payload : List Byte
  deriving DecidableEq, Repr

/-- A response (30_encoding.md R88): a status and what it carries. The data of `OK` is R89's list of bytes. -/
inductive Response where
  | ok (data : List Byte)
  | busError (e : BusErr)
  | identityMismatch
  | invalidConfig
  | notReady
  deriving DecidableEq, Repr

/-- The reasons of a refusal (60_exceptions.md R209). -/
inductive RefusalReason where
  /-- the request word or payload is reserved (30_encoding.md R87) -/
  | reservedEncoding
  /-- a transport request, or `DEV_NEW`, while a device exists (40_transport.md R108) -/
  | transportOwned
  /-- `DEV_NEW` without a built config (42_device.md R150) -/
  | noConfig
  /-- a device request without a device (42_device.md R155, R162, R170) -/
  | noDevice
  deriving DecidableEq, Repr

/-- A port event that the block waits for (60_exceptions.md R206): a transaction without an answer, or a delay that
does not complete. -/
inductive PortWait where
  | read (addr n : Nat)
  | write (addr : Nat) (v : Byte)
  | delay (ms : Nat)
  deriving DecidableEq, Repr

/-- What became of the last request taken: at most one outcome (60_exceptions.md R207), so one tagged value. -/
inductive ReqOutcome where
  /-- nothing yet: no request was taken since reset, or the request is being performed -/
  | pending
  /-- the response on the response port (10_state.md R32) -/
  | responded (r : Response)
  /-- refused: no response is presented (60_exceptions.md R209); the reason is the model's record of it (log 3) -/
  | refusedFor (why : RefusalReason)
  /-- the block stays inside the request, waiting for a port that does not answer (60_exceptions.md R206) -/
  | stuckOn (w : PortWait)
  deriving DecidableEq, Repr

/-- One entry of the trace (10_state.md R33). -/
inductive Event where
  | request (r : Request)
  /-- `MemRead(addr, n)` and its answer -/
  | read (addr n : Nat) (answer : Answer (List Byte))
  /-- `MemWrite(addr, 1, v)` and its answer -/
  | write (addr : Nat) (v : Byte) (answer : Answer Unit)
  /-- `Delay(ms)`, completed -/
  | delay (ms : Nat)
  | response (r : Response)
  deriving DecidableEq, Repr

/-- The trace of a run, oldest event first (10_state.md R33, 20_memory.md R63). -/
abbrev Trace := List Event

/-- Is this event a bus transaction (00_scope.md R16)? -/
def Event.isTransaction : Event → Bool
  | .read _ _ _ => true
  | .write _ _ _ => true
  | .request _ | .delay _ | .response _ => false

/-- Is this event one of a port that another agent completes: a transaction or a delay (10_state.md R34)? -/
def Event.isPort : Event → Bool
  | .read _ _ _ => true
  | .write _ _ _ => true
  | .delay _ => true
  | .request _ | .response _ => false

/-- How many transactions a trace holds: the index of the next one (20_memory.md R62 counts from 0 over the run). -/
def Trace.transactions (t : Trace) : Nat := t.countP Event.isTransaction

/-- How many transactions and delays a trace holds: the index of the next port event (log 7). -/
def Trace.portEvents (t : Trace) : Nat := t.countP Event.isPort

end Sys2Proof
end

