-- ==== Sys2Proof/Config.lean ====
section
/-! DEFINITION. The parameters of 00_scope.md R9 with the values the spec decides, and the free values: the bus variant
of the block, and the answers of the chip (20_memory.md R60). -/

namespace Sys2Proof

/-- `VARIANT`: which bus the block is wired to (00_scope.md R9). -/
inductive Variant where
  | spi
  | i2c
  deriving DecidableEq, Repr, Inhabited

/-- `ORDER`: which byte of an axis pair arrives first (43_conversion.md R182). -/
inductive Order where
  | highFirst
  | lowFirst
  deriving DecidableEq, Repr

/-- `ALIGN`: where the 12-bit value sits in the 16-bit pair (43_conversion.md R183). -/
inductive Align where
  | msb
  | lsb
  deriving DecidableEq, Repr

/-- The parameters of 00_scope.md R9, constant for a run. `BusErr` is the type `Sys2Proof.BusErr` (log 4). -/
structure Params where
  variant : Variant
  /-- `FRAMED(SPI)` -/
  framedSpi : Bool
  /-- `FRAMED(I2C)` -/
  framedI2c : Bool
  addrWidth : Nat
  idReg : Nat
  idExpected : Byte
  dataStart : Nat
  regTiming : Nat
  regMeasure : Nat
  regPowerCtl : Nat
  order : Order
  align : Align
  /-- `SENS`, milli-g per LSB -/
  sens : Nat
  /-- `SETTLE_MS`, milliseconds -/
  settleMs : Nat
  deriving DecidableEq, Repr

/-- `2^ADDR_WIDTH`: how many registers the chip has (20_memory.md R50). -/
def Params.space (p : Params) : Nat := 2 ^ p.addrWidth

/-- `FRAMED(VARIANT)`: whether this block's bus reads several registers in one transaction (00_scope.md R9). -/
def Params.framed (p : Params) : Bool :=
  match p.variant with
  | .spi => p.framedSpi
  | .i2c => p.framedI2c

/-- The values a block may be built with: an address width of at most 8 bits (30_encoding.md R81), register addresses
inside the register space with room for the six data registers (10_state.md R30, 20_memory.md R53), and a sensitivity
below `2^16` (00_scope.md R9). -/
def Params.wf (p : Params) : Bool :=
  decide (p.addrWidth ≤ 8) && decide (p.idReg < p.space) && decide (p.dataStart + 6 ≤ p.space)
    && decide (p.regTiming < p.space) && decide (p.regMeasure < p.space) && decide (p.regPowerCtl < p.space)
    && decide (p.sens < 2 ^ 16)

namespace Config

/-- `VARIANT` has no default (00_scope.md R9, D6): a free value. DESIGN CHOICE, log 1. -/
opaque variant : Variant

/-- The chip's answer to `MemRead(addr, n)` after a trace: a free draw of `n` bytes or a fault (20_memory.md R60).
DESIGN CHOICE, log 5. -/
opaque readAnswer : Trace → (addr n : Nat) → Except BusErr (Vector Byte n)

/-- The chip's answer to `MemWrite(addr, 1, v)` after a trace: a free draw (20_memory.md R60). DESIGN CHOICE, log 5. -/
opaque writeAnswer : Trace → (addr : Nat) → (v : Byte) → Except BusErr Unit

end Config

/-- The parameters at the values the spec decides (00_scope.md R9), for either bus variant. -/
def Params.decided (v : Variant) : Params where
  variant := v
  framedSpi := true
  framedI2c := true
  addrWidth := 7
  idReg := 0x00
  idExpected := 0xAD
  dataStart := 0x08
  regTiming := 0x3D
  regMeasure := 0x3E
  regPowerCtl := 0x3F
  order := .highFirst
  align := .msb
  sens := 100
  settleMs := 370

end Sys2Proof
end

