-- ==== Sys2Proof/Syntax.lean ====
section
/-! DEFINITION. The requests of the block: one constructor per row of spec/opcode_table.json (30_encoding.md R85), and
the enumerations their operands are made of (41_config.md R121 to R123). -/

namespace Sys2Proof

/-- Output data rates (41_config.md R121), named by their rate in Hz. -/
inductive Odr where
  | hz400
  | hz800
  | hz1600
  | hz3200
  | hz6400
  deriving DecidableEq, Repr

/-- Bandwidths (41_config.md R122), named by their corner frequency in Hz. -/
inductive Bw where
  | hz200
  | hz400
  | hz800
  | hz1600
  | hz3200
  deriving DecidableEq, Repr

/-- Power modes (41_config.md R123). -/
inductive PMode where
  | standby
  | wakeup
  | instantOn
  | fullBw
  deriving DecidableEq, Repr

/-- The requests. The comments name the source's operation of each (30_encoding.md R92). -/
inductive Instr where
  /-- `RDREG addr`: `read_register` (40_transport.md R100) -/
  | rdreg (addr : Byte)
  /-- `WRREG addr, data`: `write_register` (40_transport.md R101) -/
  | wrreg (addr data : Byte)
  /-- `RDBURST addr, n`: `read_burst` (40_transport.md R102) -/
  | rdburst (addr n : Byte)
  /-- `CFG_NEW`: `Config::new()` (41_config.md R135) -/
  | cfgNew
  /-- `CFG_ODR odr`: setter `odr` (41_config.md R136) -/
  | cfgOdr (code : Odr)
  /-- `CFG_BW bw`: setter `bandwidth` (41_config.md R137) -/
  | cfgBw (code : Bw)
  /-- `CFG_PMODE mode`: setter `power_mode` (41_config.md R138) -/
  | cfgPmode (code : PMode)
  /-- `CFG_HPF on|off`: high-pass filter option (41_config.md R139) -/
  | cfgHpf (enabled : Bool)
  /-- `CFG_LPF on|off`: low-pass filter option (41_config.md R140) -/
  | cfgLpf (enabled : Bool)
  /-- `CFG_BUILD`: `build()` (41_config.md R141) -/
  | cfgBuild
  /-- `DEV_NEW`: `Device::new(transport, config)` (42_device.md R150) -/
  | devNew
  /-- `DEV_INIT`: `Device::init` (42_device.md R155) -/
  | devInit
  /-- `DEV_READXYZ`: `Device::read_xyz_raw` (42_device.md R162) -/
  | devReadxyz
  /-- `DEV_DROP`: drop of the device (42_device.md R170) -/
  | devDrop
  /-- `CONV_RAW b0, .., b5`: conversion (43_conversion.md R186); the six payload bytes in payload order -/
  | convRaw (p0 p1 p2 p3 p4 p5 : Byte)
  /-- `SCALE x, y, z`: scaling (43_conversion.md R189); the payload assembled by 30_encoding.md R84 -/
  | scale (x y z : I16)
  deriving DecidableEq, Repr

end Sys2Proof
end

