-- ==== Sys2Proof/WellFormed.lean ====
section
/-! DEFINITION. The requests that have an encoding: the operand constraints of 30_encoding.md R81 and R85 that the types
of the operands do not already hold. -/

namespace Sys2Proof

/-- An address field holds `addr < 2^ADDR_WIDTH` (30_encoding.md R81). -/
def addrFits (p : Params) (addr : Byte) : Bool := decide (addr.toNat < p.space)

/-- A burst has `1 <= n` (30_encoding.md R85). -/
def burstNonempty (n : Byte) : Bool := decide (1 ≤ n.toNat)

/-- A burst has `addr + n <= 2^ADDR_WIDTH` (30_encoding.md R85, 20_memory.md R57). -/
def burstFits (p : Params) (addr n : Byte) : Bool := decide (addr.toNat + n.toNat ≤ p.space)

/-- The request has an encoding at the block's parameters (30_encoding.md R85 and R87). -/
def Instr.wf (p : Params) : Instr → Bool
  | .rdreg addr => addrFits p addr
  | .wrreg addr _ => addrFits p addr
  | .rdburst addr n => addrFits p addr && burstNonempty n && burstFits p addr n
  | .cfgNew => true
  | .cfgOdr _ => true
  | .cfgBw _ => true
  | .cfgPmode _ => true
  | .cfgHpf _ => true
  | .cfgLpf _ => true
  | .cfgBuild => true
  | .devNew => true
  | .devInit => true
  | .devReadxyz => true
  | .devDrop => true
  | .convRaw _ _ _ _ _ _ => true
  | .scale _ _ _ => true

end Sys2Proof
end

