-- ==== Sys2Proof/Decode.lean ====
section
/-! DEFINITION. Decoding and encoding of requests (30_encoding.md R80 to R87): fields, setting codes, payload assembly, a
total decoder that rejects by name, the encoder, and the request that a row's bits stand for. -/

namespace Sys2Proof

/-! ### Fields of the request word (30_encoding.md R80) -/

/-- `OPC`, bits 31..24. -/
def Request.opc (r : Request) : Byte := r.word.extractLsb' 24 8

/-- `A`, bits 23..16. -/
def Request.a (r : Request) : Byte := r.word.extractLsb' 16 8

/-- `B`, bits 15..8. -/
def Request.b (r : Request) : Byte := r.word.extractLsb' 8 8

/-- `C`, bits 7..0. -/
def Request.c (r : Request) : Byte := r.word.extractLsb' 0 8

/-- The word of four fields (30_encoding.md R80). -/
def mkWord (opc a b c : Byte) : Word := opc ++ a ++ b ++ c

/-! ### Setting codes (30_encoding.md R83, 41_config.md R121 to R123) -/

/-- The 3-bit code of an output data rate (41_config.md R121). -/
def Odr.code : Odr → Byte
  | .hz400 => 0
  | .hz800 => 1
  | .hz1600 => 2
  | .hz3200 => 3
  | .hz6400 => 4

/-- The output data rate of a code; 5 and above are reserved (41_config.md R121). -/
def Odr.ofCode (c : Byte) : Option Odr :=
  match c.toNat with
  | 0 => some .hz400
  | 1 => some .hz800
  | 2 => some .hz1600
  | 3 => some .hz3200
  | 4 => some .hz6400
  | _ => none

/-- The 3-bit code of a bandwidth (41_config.md R122). -/
def Bw.code : Bw → Byte
  | .hz200 => 0
  | .hz400 => 1
  | .hz800 => 2
  | .hz1600 => 3
  | .hz3200 => 4

/-- The bandwidth of a code; 5 and above are reserved (41_config.md R122). -/
def Bw.ofCode (c : Byte) : Option Bw :=
  match c.toNat with
  | 0 => some .hz200
  | 1 => some .hz400
  | 2 => some .hz800
  | 3 => some .hz1600
  | 4 => some .hz3200
  | _ => none

/-- The 2-bit code of a power mode (41_config.md R123). -/
def PMode.code : PMode → Byte
  | .standby => 0
  | .wakeup => 1
  | .instantOn => 2
  | .fullBw => 3

/-- The power mode of a code: all four 2-bit codes are legal (41_config.md R123). -/
def PMode.ofCode (c : Byte) : Option PMode :=
  match c.toNat with
  | 0 => some .standby
  | 1 => some .wakeup
  | 2 => some .instantOn
  | 3 => some .fullBw
  | _ => none

/-- The code of a filter setting: 1 enabled, 0 disabled (30_encoding.md R83). -/
def enableCode : Bool → Byte
  | true => 1
  | false => 0

/-- The filter setting of a code; 2 and above are reserved (30_encoding.md R83). -/
def enableOfCode (c : Byte) : Option Bool :=
  match c.toNat with
  | 0 => some false
  | 1 => some true
  | _ => none

/-! ### Payloads (30_encoding.md R84 and R86) -/

/-- `PLEN(OPC)`: how many payload bytes follow the word (30_encoding.md R86). -/
def plen (opc : Byte) : Nat :=
  match opc.toNat with
  | 0x30 => 6
  | 0x31 => 6
  | _ => 0

/-- `sext_16(hi << 8 | lo)` as the 16-bit pattern: one value of `SCALE`'s payload, high byte first (30_encoding.md R84). -/
def joinHighFirst (hi lo : Byte) : I16 := hi ++ lo

/-- The high byte `u[15:8]` of a 16-bit pattern. -/
def hiByte (v : I16) : Byte := v.extractLsb' 8 8

/-- The low byte `u[7:0]` of a 16-bit pattern. -/
def loByte (v : I16) : Byte := v.extractLsb' 0 8

/-! ### The decoder -/

/-- Why a request is reserved: the clauses of 30_encoding.md R87, in its order. Every one of them is the refusal
`ReservedEncoding`. -/
inductive ReservedWhy where
  /-- `OPC` is not in the map of R85 -/
  | unknownOpcode
  /-- a field the format requires to be 0 is not 0 -/
  | nonzeroField
  /-- an address field has `A[7:ADDR_WIDTH] != 0` -/
  | addressTooWide
  /-- a further constraint of R85 fails: an unlisted setting code, an empty burst or one past the top -/
  | badOperand
  /-- the payload is not of the length R86 gives -/
  | payloadLength
  deriving DecidableEq, Repr

/-- The result of decoding: a request of the opcode map, or the reason why the word is reserved. -/
abbrev Decoded := Except ReservedWhy Instr

/-- A request without payload (30_encoding.md R86). -/
def noPayload (r : Request) (i : Instr) : Decoded :=
  if r.payload = [] then .ok i else .error .payloadLength

/-- Format N: no operand (30_encoding.md R81). -/
def decodeN (r : Request) (i : Instr) : Decoded :=
  if r.a ≠ 0 ∨ r.b ≠ 0 ∨ r.c ≠ 0 then .error .nonzeroField else noPayload r i

/-- Format R: a register address in `A` (30_encoding.md R81). -/
def decodeR (p : Params) (r : Request) : Decoded :=
  if r.b ≠ 0 ∨ r.c ≠ 0 then .error .nonzeroField
  else if addrFits p r.a = false then .error .addressTooWide
  else noPayload r (.rdreg r.a)

/-- Format W: a register address in `A`, a data byte in `B` (30_encoding.md R81). -/
def decodeW (p : Params) (r : Request) : Decoded :=
  if r.c ≠ 0 then .error .nonzeroField
  else if addrFits p r.a = false then .error .addressTooWide
  else noPayload r (.wrreg r.a r.b)

/-- Format U: a register address in `A`, a count in `B`, with the constraints of 30_encoding.md R85. -/
def decodeU (p : Params) (r : Request) : Decoded :=
  if r.c ≠ 0 then .error .nonzeroField
  else if addrFits p r.a = false then .error .addressTooWide
  else if burstNonempty r.b = false ∨ burstFits p r.a r.b = false then .error .badOperand
  else noPayload r (.rdburst r.a r.b)

/-- Format S: a setting code in `A` (30_encoding.md R81), read by the setting's own table (R83). -/
def decodeS {α : Type} (r : Request) (ofCode : Byte → Option α) (i : α → Instr) : Decoded :=
  if r.b ≠ 0 ∨ r.c ≠ 0 then .error .nonzeroField
  else
    match ofCode r.a with
    | none => .error .badOperand
    | some v => noPayload r (i v)

/-- Format P: a payload of six bytes (30_encoding.md R81 and R86). -/
def decodeP (r : Request) (i : Byte → Byte → Byte → Byte → Byte → Byte → Instr) : Decoded :=
  if r.a ≠ 0 ∨ r.b ≠ 0 ∨ r.c ≠ 0 then .error .nonzeroField
  else
    match r.payload with
    | [p0, p1, p2, p3, p4, p5] => .ok (i p0 p1 p2 p3 p4 p5)
    | _ => .error .payloadLength

/-- The decoder: total on every word and payload (30_encoding.md R85 to R87). -/
def decode (p : Params) (r : Request) : Decoded :=
  match r.opc.toNat with
  | 0x01 => decodeR p r
  | 0x02 => decodeW p r
  | 0x03 => decodeU p r
  | 0x10 => decodeN r .cfgNew
  | 0x11 => decodeS r Odr.ofCode .cfgOdr
  | 0x12 => decodeS r Bw.ofCode .cfgBw
  | 0x13 => decodeS r PMode.ofCode .cfgPmode
  | 0x14 => decodeS r enableOfCode .cfgHpf
  | 0x15 => decodeS r enableOfCode .cfgLpf
  | 0x16 => decodeN r .cfgBuild
  | 0x20 => decodeN r .devNew
  | 0x21 => decodeN r .devInit
  | 0x22 => decodeN r .devReadxyz
  | 0x23 => decodeN r .devDrop
  | 0x30 => decodeP r .convRaw
  | 0x31 => decodeP r fun p0 p1 p2 p3 p4 p5 =>
      .scale (joinHighFirst p0 p1) (joinHighFirst p2 p3) (joinHighFirst p4 p5)
  | _ => .error .unknownOpcode

/-! ### The encoder -/

/-- A request of a word without payload. -/
def plain (opc a b : Byte) : Request := ⟨mkWord opc a b 0, []⟩

/-- The word and payload of a request (30_encoding.md R80, R81, R84, R85). -/
def encode : Instr → Request
  | .rdreg addr => plain 0x01 addr 0
  | .wrreg addr data => plain 0x02 addr data
  | .rdburst addr n => plain 0x03 addr n
  | .cfgNew => plain 0x10 0 0
  | .cfgOdr c => plain 0x11 c.code 0
  | .cfgBw c => plain 0x12 c.code 0
  | .cfgPmode c => plain 0x13 c.code 0
  | .cfgHpf c => plain 0x14 (enableCode c) 0
  | .cfgLpf c => plain 0x15 (enableCode c) 0
  | .cfgBuild => plain 0x16 0 0
  | .devNew => plain 0x20 0 0
  | .devInit => plain 0x21 0 0
  | .devReadxyz => plain 0x22 0 0
  | .devDrop => plain 0x23 0 0
  | .convRaw p0 p1 p2 p3 p4 p5 => ⟨mkWord 0x30 0 0 0, [p0, p1, p2, p3, p4, p5]⟩
  | .scale x y z =>
      ⟨mkWord 0x31 0 0 0, [hiByte x, loByte x, hiByte y, loByte y, hiByte z, loByte z]⟩

/-! ### The opcode table as data (30_encoding.md R85, spec/opcode_table.json) -/

/-- What a row asks of a word beyond its mask and match (30_encoding.md R85). -/
inductive RowExtra where
  | nothing
  /-- `1 <= n`, `addr + n <= 2^ADDR_WIDTH` -/
  | burst
  /-- `code <= limit` -/
  | codeAtMost (limit : Nat)
  deriving DecidableEq, Repr

/-- One row of spec/opcode_table.json: its masks are those of `ADDR_WIDTH = 7`. -/
structure OpcodeRow where
  mnemonic : String
  pattern : Word
  mask : Word
  payloadLen : Nat
  extra : RowExtra
  deriving DecidableEq, Repr

/-- The sixteen rows. -/
def opcodeTable : List OpcodeRow :=
  [
   ⟨"RDREG", 0x01000000, 0xFF80FFFF, 0, .nothing⟩,
   ⟨"WRREG", 0x02000000, 0xFF8000FF, 0, .nothing⟩,
   ⟨"RDBURST", 0x03000000, 0xFF8000FF, 0, .burst⟩,
   ⟨"CFG_NEW", 0x10000000, 0xFFFFFFFF, 0, .nothing⟩,
   ⟨"CFG_ODR", 0x11000000, 0xFFF8FFFF, 0, .codeAtMost 4⟩,
   ⟨"CFG_BW", 0x12000000, 0xFFF8FFFF, 0, .codeAtMost 4⟩,
   ⟨"CFG_PMODE", 0x13000000, 0xFFFCFFFF, 0, .nothing⟩,
   ⟨"CFG_HPF", 0x14000000, 0xFFFEFFFF, 0, .nothing⟩,
   ⟨"CFG_LPF", 0x15000000, 0xFFFEFFFF, 0, .nothing⟩,
   ⟨"CFG_BUILD", 0x16000000, 0xFFFFFFFF, 0, .nothing⟩,
   ⟨"DEV_NEW", 0x20000000, 0xFFFFFFFF, 0, .nothing⟩,
   ⟨"DEV_INIT", 0x21000000, 0xFFFFFFFF, 0, .nothing⟩,
   ⟨"DEV_READXYZ", 0x22000000, 0xFFFFFFFF, 0, .nothing⟩,
   ⟨"DEV_DROP", 0x23000000, 0xFFFFFFFF, 0, .nothing⟩,
   ⟨"CONV_RAW", 0x30000000, 0xFFFFFFFF, 6, .nothing⟩,
   ⟨"SCALE", 0x31000000, 0xFFFFFFFF, 6, .nothing⟩]

/-- The further constraint of a row, at `ADDR_WIDTH = 7` (30_encoding.md R85). -/
def RowExtra.holds (x : RowExtra) (r : Request) : Bool :=
  match x with
  | .nothing => true
  | .burst => decide (1 ≤ r.b.toNat) && decide (r.a.toNat + r.b.toNat ≤ 128)
  | .codeAtMost limit => decide (r.a.toNat ≤ limit)

/-- A request matches a row when `word & mask = match`, the further constraint holds and the payload has its length
(30_encoding.md R85 to R87). -/
def OpcodeRow.matches (row : OpcodeRow) (r : Request) : Bool :=
  decide (r.word &&& row.mask = row.pattern) && row.extra.holds r && decide (r.payload.length = row.payloadLen)

/-- The mnemonic of a request, as the opcode table spells it. -/
def Instr.mnemonic : Instr → String
  | .rdreg _ => "RDREG"
  | .wrreg _ _ => "WRREG"
  | .rdburst _ _ => "RDBURST"
  | .cfgNew => "CFG_NEW"
  | .cfgOdr _ => "CFG_ODR"
  | .cfgBw _ => "CFG_BW"
  | .cfgPmode _ => "CFG_PMODE"
  | .cfgHpf _ => "CFG_HPF"
  | .cfgLpf _ => "CFG_LPF"
  | .cfgBuild => "CFG_BUILD"
  | .devNew => "DEV_NEW"
  | .devInit => "DEV_INIT"
  | .devReadxyz => "DEV_READXYZ"
  | .devDrop => "DEV_DROP"
  | .convRaw _ _ _ _ _ _ => "CONV_RAW"
  | .scale _ _ _ => "SCALE"

/-! ### Rows of the opcode table as requests -/

/-- The payload bytes of an instruction whose bits are `w`: byte `k` of `n` is bits `39+8k .. 32+8k`. -/
def payloadOfBits (w : Nat) : (n : Nat) → List Byte
  | 0 => []
  | n + 1 => payloadOfBits w n ++ [BitVec.ofNat 8 (w >>> (32 + 8 * n))]

/-- The request whose `nbits` bits are `w`, numbered as spec/opcode_table.json numbers them: the request word is bits
31..0, payload byte `k` is bits `39+8k .. 32+8k`, every bit above `nbits` is 0. The payload has the length its `OPC`
gives (30_encoding.md R86), or as many whole bytes as `nbits` holds where that is more (log 10). -/
def Request.ofBits (nbits w : Nat) : Request :=
  let bits := w % 2 ^ nbits
  let word : Word := BitVec.ofNat 32 bits
  ⟨word, payloadOfBits bits (max (plen (word.extractLsb' 24 8)) ((nbits - 32) / 8))⟩

/-- The instruction the decoder reads from a row's bits, at the decided parameters (the bus variant does not enter
decoding). -/
def decodeTableWord (nbits w : Nat) : Option Instr :=
  (decode (Params.decided Config.variant) (Request.ofBits nbits w)).toOption

end Sys2Proof
end

