-- ==== Sys2Proof/Machine/RegisterMap.lean ====
section
/-! DEFINITION. The register map and the configuration encoder (41_config.md R120 to R134, R144): fields, packing,
unpacking, legality and the write list. Pure data and functions; no state. -/

namespace Sys2Proof

/-! ### Settings -/

/-- The builder's settings; only the enumerated values are representable (41_config.md R124). -/
structure Settings where
  odr : Odr
  bw : Bw
  mode : PMode
  hpfEn : Bool
  lpfEn : Bool
  deriving DecidableEq, Repr

/-- `DEFAULT` (41_config.md R125). -/
def Settings.default : Settings where
  odr := .hz400
  bw := .hz200
  mode := .fullBw
  hpfEn := true
  lpfEn := true

/-- `ODR_Hz(c) = 400 * 2^c` (41_config.md R121). -/
def Odr.hz (o : Odr) : Nat := 400 * 2 ^ o.code.toNat

/-- `BW_Hz(c) = 200 * 2^c` (41_config.md R122). -/
def Bw.hz (b : Bw) : Nat := 200 * 2 ^ b.code.toNat

/-- Legality of a combination: the bandwidth code does not exceed the rate code (41_config.md R133). -/
def legal (s : Settings) : Bool := decide (s.bw.code.toNat ≤ s.odr.code.toNat)

/-! ### The map (41_config.md R126 to R129) -/

/-- The three configuration registers, in write order (41_config.md R132). -/
inductive ConfReg where
  | timing
  | measure
  | powerCtl
  deriving DecidableEq, Repr

/-- The address of a configuration register: a parameter (20_memory.md R53). -/
def ConfReg.addr (p : Params) : ConfReg → Nat
  | .timing => p.regTiming
  | .measure => p.regMeasure
  | .powerCtl => p.regPowerCtl

/-- The fields the encoder writes from a setting (41_config.md R129). -/
inductive Field where
  | odr
  | bandwidth
  | mode
  | hpfDisable
  | lpfDisable
  deriving DecidableEq, Repr

/-- One row of the mask and shift table (41_config.md R129); the mask is in place. -/
structure FieldPos where
  reg : ConfReg
  shift : Nat
  mask : Byte
  width : Nat
  deriving DecidableEq, Repr

/-- The mask and shift table: the single place field positions are read from (41_config.md R120 and R129). -/
def Field.pos : Field → FieldPos
  | .odr => ⟨.timing, 5, 0xE0, 3⟩
  | .bandwidth => ⟨.measure, 0, 0x07, 3⟩
  | .mode => ⟨.powerCtl, 0, 0x03, 2⟩
  | .hpfDisable => ⟨.powerCtl, 2, 0x04, 1⟩
  | .lpfDisable => ⟨.powerCtl, 3, 0x08, 1⟩

/-- `put(f, v) = (v << shift(f)) & mask(f)` (41_config.md R129). -/
def Field.put (f : Field) (v : Byte) : Byte := (v <<< f.pos.shift) &&& f.pos.mask

/-- `get(f, byte) = (byte & mask(f)) >> shift(f)` (41_config.md R129). -/
def Field.get (f : Field) (b : Byte) : Byte := (b &&& f.pos.mask) >>> f.pos.shift

/-- Every named field of the three registers (41_config.md R126 to R128), the ones written as 0 among them. -/
inductive ChipField where
  | odr
  | wakeupRate
  | extClk
  | extSync
  | userOrDisable
  | autosleep
  | linkloop
  | lowNoise
  | bandwidth
  | i2cHsmEn
  | reserved6
  | instantOnThresh
  | filSettle
  | lpfDisable
  | hpfDisable
  | mode
  deriving DecidableEq, Repr

/-- Where a chip field stands: register, lowest bit, width (41_config.md R126 to R128). -/
structure ChipPos where
  reg : ConfReg
  lo : Nat
  width : Nat
  deriving DecidableEq, Repr

/-- The layout tables of 41_config.md R126 (`REG_TIMING`), R127 (`REG_MEASURE`) and R128 (`REG_POWER_CTL`). -/
def ChipField.pos : ChipField → ChipPos
  | .odr => ⟨.timing, 5, 3⟩
  | .wakeupRate => ⟨.timing, 2, 3⟩
  | .extClk => ⟨.timing, 1, 1⟩
  | .extSync => ⟨.timing, 0, 1⟩
  | .userOrDisable => ⟨.measure, 7, 1⟩
  | .autosleep => ⟨.measure, 6, 1⟩
  | .linkloop => ⟨.measure, 4, 2⟩
  | .lowNoise => ⟨.measure, 3, 1⟩
  | .bandwidth => ⟨.measure, 0, 3⟩
  | .i2cHsmEn => ⟨.powerCtl, 7, 1⟩
  | .reserved6 => ⟨.powerCtl, 6, 1⟩
  | .instantOnThresh => ⟨.powerCtl, 5, 1⟩
  | .filSettle => ⟨.powerCtl, 4, 1⟩
  | .lpfDisable => ⟨.powerCtl, 3, 1⟩
  | .hpfDisable => ⟨.powerCtl, 2, 1⟩
  | .mode => ⟨.powerCtl, 0, 2⟩

/-- What the encoder writes into a chip field, as the layout tables say it (41_config.md R126 to R128). -/
def ChipField.written (s : Settings) : ChipField → Nat
  | .odr => s.odr.code.toNat
  | .bandwidth => s.bw.code.toNat
  | .mode => s.mode.code.toNat
  | .hpfDisable => if s.hpfEn then 0 else 1
  | .lpfDisable => if s.lpfEn then 0 else 1
  | .wakeupRate | .extClk | .extSync | .userOrDisable | .autosleep | .linkloop | .lowNoise | .i2cHsmEn
  | .reserved6 | .instantOnThresh | .filSettle => 0

/-! ### Packing (41_config.md R130, R131, R134) -/

/-- The three packed register bytes. -/
structure Packed where
  timing : Byte
  measure : Byte
  powerCtl : Byte
  deriving DecidableEq, Repr

/-- The byte of one configuration register. -/
def Packed.byte (k : Packed) : ConfReg → Byte
  | .timing => k.timing
  | .measure => k.measure
  | .powerCtl => k.powerCtl

/-- `REG_TIMING`, `REG_MEASURE`, `REG_POWER_CTL`, in that order: the data of a built response (30_encoding.md R89). -/
def Packed.bytes (k : Packed) : List Byte := [k.timing, k.measure, k.powerCtl]

/-- The disable bit of a filter setting: 0 when the filter is enabled (41_config.md R128 and R130). -/
def disableBit (enabled : Bool) : Byte := if enabled then 0 else 1

/-- `pack` (41_config.md R130). -/
def pack (s : Settings) : Packed where
  timing := Field.odr.put s.odr.code
  measure := Field.bandwidth.put s.bw.code
  powerCtl := Field.mode.put s.mode.code ||| Field.hpfDisable.put (disableBit s.hpfEn)
    ||| Field.lpfDisable.put (disableBit s.lpfEn)

/-- `unpack` (41_config.md R134); the two mode bits always name a mode. -/
def unpack (k : Packed) : Option Settings :=
  match Odr.ofCode (Field.odr.get k.timing), Bw.ofCode (Field.bandwidth.get k.measure),
      PMode.ofCode (Field.mode.get k.powerCtl) with
  | some o, some b, some m =>
    some { odr := o, bw := b, mode := m,
           hpfEn := decide (Field.hpfDisable.get k.powerCtl = 0),
           lpfEn := decide (Field.lpfDisable.get k.powerCtl = 0) }
  | _, _, _ => none

/-- A built config (41_config.md R131): the settings and their packed bytes. -/
structure BuiltConfig where
  settings : Settings
  packed : Packed
  deriving DecidableEq, Repr

/-- What a built config satisfies (41_config.md R131). -/
def BuiltConfig.wf (c : BuiltConfig) : Bool := decide (c.packed = pack c.settings) && legal c.settings

/-- The config that `CFG_BUILD` makes of legal settings (41_config.md R141). -/
def build (s : Settings) : BuiltConfig := ⟨s, pack s⟩

/-- `writes(c)`: the write list, the power register last (41_config.md R132, 70_reset_and_hazards.md R243). -/
def BuiltConfig.writes (p : Params) (c : BuiltConfig) : List (Nat × Byte) :=
  [(ConfReg.timing.addr p, c.packed.timing), (ConfReg.measure.addr p, c.packed.measure),
   (ConfReg.powerCtl.addr p, c.packed.powerCtl)]

end Sys2Proof
end

