-- ==== Sys2Proof/Machine/State.lean ====
section
/-! DEFINITION. The state of the block (10_state.md R22 and R27), its ports and trace (R32 and R33), its parameters
(00_scope.md R9), and what stands behind the ports (20_memory.md R60 and R62); the reasons of a stop; the state after
reset (70_reset_and_hazards.md R230). -/

namespace Sys2Proof.Machine

/-- `DevState` (10_state.md R23). -/
inductive DevState where
  | noDevice
  | uninitialized
  | ready
  deriving DecidableEq, Repr

/-- Which oracle answers the bus: the free one of 20_memory.md R60, or the simulator of R62. -/
inductive Oracle where
  | free
  | sim
  deriving DecidableEq, Repr

/-- The simulator's register file (20_memory.md R62): address and byte, in one canonical form (`Memory.wf`). -/
abbrev Memory := List Host.Cell

/-- The state of the machine. The first five fields are the record `st` of 10_state.md R22. -/
structure State where
  /-- builder staging -/
  stg : Settings
  /-- result of the last `CFG_BUILD`, or none -/
  cfg : Option BuiltConfig
  /-- the device's state -/
  dev : DevState
  /-- the device's own copy of its config -/
  devCfg : Option BuiltConfig
  /-- the sticky refusal mark (60_exceptions.md R209) -/
  refused : Bool
  /-- the parameters of the block; no step writes them (00_scope.md R9, log 11) -/
  params : Params
  /-- the host's request stream; the head is on the request port (10_state.md R32, log 10) -/
  requests : List Request
  /-- what became of the last request taken (10_state.md R32, 60_exceptions.md R206, R207 and R209) -/
  outcome : ReqOutcome
  /-- the trace, oldest event first (10_state.md R33) -/
  trace : Trace
  /-- which oracle answers the bus port (20_memory.md R60 and R62, log 5) -/
  oracle : Oracle
  /-- the simulator's register file (20_memory.md R62, log 6) -/
  simRegs : Memory
  /-- the simulator's fault set `F`, each index with its fault `e_j` (20_memory.md R62, log 6) -/
  simFaults : List (Nat × BusErr)
  /-- the port event that its port never completes, if the duty of 10_state.md R34 is broken (log 7) -/
  silentAt : Option Nat
  deriving DecidableEq, Repr

/-- Why the machine stops. -/
inductive Fault where
  /-- Raised by `step` in a state whose block waits for a port that does not answer: the block "has no step"
  (60_exceptions.md R206). Safe: nothing is claimed of the run beyond it. -/
  | portSilent (w : PortWait)
  /-- Raised by `DEV_INIT` in a state with a device and no device config, which 10_state.md R24 excludes and no run
  reaches. Safe: the spec gives no such state. DESIGN CHOICE, log 13. -/
  | deviceWithoutConfig
  deriving DecidableEq, Repr

/-- Why the model gives a request no meaning. (The spec's own refusals, 60_exceptions.md R209, are next states with the
mark set, not this: log 2.) -/
inductive Refusal where
  /-- Raised by `exec` for a request whose meaning is not written; no arm does. Safe: the run stops. -/
  | notModelled (mnemonic : String)
  deriving DecidableEq, Repr

/-- The state at the start of a run (70_reset_and_hazards.md R230, 10_state.md R27). -/
def State.reset : State where
  stg := Settings.default
  cfg := none
  dev := .noDevice
  devCfg := none
  refused := false
  params := Params.decided Config.variant
  requests := []
  outcome := .pending
  trace := []
  oracle := .free
  simRegs := []
  simFaults := []
  silentAt := none

end Sys2Proof.Machine
end

