-- ==== Sys2Proof/Machine/Flags.lean ====
section
/-! DEFINITION. The block has no flags or condition codes (10_state.md R28). What tells the host how a request ended is
the status code of its response (30_encoding.md R88, 60_exceptions.md R200). -/

namespace Sys2Proof.Machine

/-- The status code a response is presented with (30_encoding.md R88). -/
def statusCode : Response → Byte
  | .ok _ => 0x00
  | .busError _ => 0x01
  | .identityMismatch => 0x02
  | .invalidConfig => 0x03
  | .notReady => 0x04

/-- The data bytes that follow the status code (30_encoding.md R88 and R89); a `BUS_ERROR` carries its fault, which is
no byte string (log 4). -/
def statusData : Response → List Byte
  | .ok data => data
  | .busError _ => []
  | .identityMismatch => []
  | .invalidConfig => []
  | .notReady => []

/-- The fault a response carries (30_encoding.md R88, 60_exceptions.md R200). -/
def statusFault : Response → Option BusErr
  | .ok _ => none
  | .busError e => some e
  | .identityMismatch => none
  | .invalidConfig => none
  | .notReady => none

end Sys2Proof.Machine
end

