-- ==== Sys2Proof/Machine/Operands.lean ====
section
/-! DEFINITION. Sample conversion and scaling (43_conversion.md R180 to R192): pairing, field extraction, sign extension,
the result encodings, and the integer product. Pure functions of their operands and the parameters. -/

namespace Sys2Proof.Machine

/-- A triple of axis values (43_conversion.md R181). -/
structure Sample where
  x : I16
  y : I16
  z : I16
  deriving DecidableEq, Repr

/-- `sext_N(v)`: a field of `N` bits read as two's complement (00_scope.md R12). -/
def sext {n : Nat} (v : BitVec n) : Int :=
  if v.toNat < 2 ^ (n - 1) then (v.toNat : Int) else (v.toNat : Int) - 2 ^ n

/-- The high byte of a pair that arrived as `first`, `second` (43_conversion.md R182). -/
def pairHigh (o : Order) (first second : Byte) : Byte :=
  match o with
  | .highFirst => first
  | .lowFirst => second

/-- The low byte of a pair that arrived as `first`, `second` (43_conversion.md R182). -/
def pairLow (o : Order) (first second : Byte) : Byte :=
  match o with
  | .highFirst => second
  | .lowFirst => first

/-- The 12-bit field of `w = H << 8 | L` (43_conversion.md R183). -/
def sampleField (al : Align) (w : BitVec 16) : BitVec 12 :=
  match al with
  | .msb => w.extractLsb' 4 12
  | .lsb => w.extractLsb' 0 12

/-- The value of one axis from the two bytes of its pair, as `i16` (43_conversion.md R182 to R184). -/
def axisValue (p : Params) (first second : Byte) : I16 :=
  BitVec.ofInt 16 (sext (sampleField p.align (pairHigh p.order first second ++ pairLow p.order first second)))

/-- `convert` (43_conversion.md R184). -/
def convert (p : Params) (b : Vector Byte 6) : Sample where
  x := axisValue p b[0] b[1]
  y := axisValue p b[2] b[3]
  z := axisValue p b[4] b[5]

/-- `scale(v) = v * SENS`, computed exactly and stored as `i32` (43_conversion.md R187). -/
def scaleValue (p : Params) (v : I16) : I32 := BitVec.ofInt 32 (v.toInt * p.sens)

/-- `enc16`: the two bytes of a 16-bit pattern, high byte first (43_conversion.md R185). -/
def enc16 (v : I16) : List Byte := [hiByte v, loByte v]

/-- `enc32`: the four bytes of a 32-bit pattern, most significant first (43_conversion.md R185). -/
def enc32 (v : I32) : List Byte :=
  [v.extractLsb' 24 8, v.extractLsb' 16 8, v.extractLsb' 8 8, v.extractLsb' 0 8]

/-- The data of a sample response: X, Y, Z as `i16` (30_encoding.md R89). -/
def Sample.bytes (m : Sample) : List Byte := enc16 m.x ++ enc16 m.y ++ enc16 m.z

/-- The data of a scaled response: X, Y, Z in milli-g as `i32` (30_encoding.md R89). -/
def scaledBytes (p : Params) (m : Sample) : List Byte :=
  enc32 (scaleValue p m.x) ++ enc32 (scaleValue p m.y) ++ enc32 (scaleValue p m.z)

end Sys2Proof.Machine
end

