-- ==== Sys2Proof/Machine/Ops.lean ====
section
/-! DEFINITION. The shared operations: the simulator's register file, the updates of the state, the bus and delay ports
(10_state.md R30 and R31), the transport primitives (40_transport.md R103 to R107), and how a request ends (respond,
raise an error, refuse: 00_scope.md R13). -/

namespace Sys2Proof.Machine

/-! ### The simulator's register file (20_memory.md R62) -/

/-- What an unlisted register of the simulator holds (95_test_vectors.md section 3, log 6). -/
def Memory.unlisted : Byte := 0

/-- The byte of register `a`. -/
def Memory.read : Memory → Nat → Byte
  | [], _ => Memory.unlisted
  | (k, v) :: m, a => if k = a then v else Memory.read m a

/-- Put an entry in front, unless it equals what an unlisted register holds. -/
def Memory.put (a : Nat) (v : Byte) (m : Memory) : Memory := if v = Memory.unlisted then m else (a, v) :: m

/-- Write `v` to register `a`, keeping the canonical form. -/
def Memory.write : Memory → Nat → Byte → Memory
  | [], a, v => Memory.put a v []
  | (k, w) :: m, a, v =>
    if a < k then Memory.put a v ((k, w) :: m)
    else if a = k then Memory.put a v m
    else (k, w) :: Memory.write m a v

/-- `sim[a] ++ … ++ sim[a+n-1]`, in ascending address order (20_memory.md R55 and R62). -/
def Memory.readBytes (m : Memory) (a : Nat) : (n : Nat) → Vector Byte n
  | 0 => #v[]
  | n + 1 => (Memory.readBytes m a n).push (m.read (a + n))

/-- The canonical form: addresses strictly rising, no entry equal to what an unlisted register holds. -/
def Memory.wf : Memory → Bool
  | [] => true
  | (k, v) :: m => decide (v ≠ Memory.unlisted) && m.all (fun c => decide (k < c.1)) && Memory.wf m

/-! ### Updates of the state -/

/-- Record an event in the trace (10_state.md R33). -/
def State.record (s : State) (e : Event) : State := { s with trace := s.trace ++ [e] }

/-- Take the request `r` from the request port; `rest` is still to be presented (10_state.md R32 and R33). -/
def State.accept (s : State) (r : Request) (rest : List Request) : State :=
  { s with requests := rest, outcome := .pending, trace := s.trace ++ [.request r] }

/-- Present a response: the request ends (00_scope.md R13, 10_state.md R32). -/
def State.present (s : State) (r : Response) : State :=
  { s with outcome := .responded r, trace := s.trace ++ [.response r] }

/-- `respond(data)`: the request ends with status `OK` (00_scope.md R13). -/
def State.respond (s : State) (data : List Byte) : State := s.present (.ok data)

/-- The error kinds of 60_exceptions.md R200. -/
inductive ErrorKind where
  | busError (e : BusErr)
  | identityMismatch
  | invalidConfig
  | notReady
  deriving DecidableEq, Repr

/-- The response of an error (60_exceptions.md R200). -/
def ErrorKind.response : ErrorKind → Response
  | .busError e => .busError e
  | .identityMismatch => .identityMismatch
  | .invalidConfig => .invalidConfig
  | .notReady => .notReady

/-- `raise E(info)`: the request ends with the status `E`; state writes already made stay made (00_scope.md R13). This
is all there is to taking an exception: no state is saved, there is no handler and no return (60_exceptions.md R208). -/
def State.raise (s : State) (e : ErrorKind) : State := s.present e.response

/-- `refuse(reason)`: the sticky mark is set, no response is presented, nothing else of `st` is written
(60_exceptions.md R209). -/
def State.refuse (s : State) (why : RefusalReason) : State :=
  { s with refused := true, outcome := .refusedFor why }

/-- The block stays inside the request, waiting for a port (60_exceptions.md R206). -/
def State.stall (s : State) (w : PortWait) : State := { s with outcome := .stuckOn w }

/-- Write the staging. -/
def State.setStg (s : State) (x : Settings) : State := { s with stg := x }

/-- Write the built config. -/
def State.setCfg (s : State) (c : Option BuiltConfig) : State := { s with cfg := c }

/-- Write the device's state. -/
def State.setDev (s : State) (d : DevState) : State := { s with dev := d }

/-- Write the device's config. -/
def State.setDevCfg (s : State) (c : Option BuiltConfig) : State := { s with devCfg := c }

/-- Write the simulator's register file. -/
def State.setSimRegs (s : State) (m : Memory) : State := { s with simRegs := m }

/-- Write the host's request stream (what the host does, not the block). -/
def State.setRequests (s : State) (rs : List Request) : State := { s with requests := rs }

/-! ### The ports -/

/-- The answer of a port as an operation sees it: none when the port never answers (60_exceptions.md R206), with the
state after the event. -/
abbrev Reply (α : Type) := Option (Answer α) × State

/-- Go on with the next operation of the same request after a successful answer; an error or a silent port ends it
(40_transport.md R105, 42_device.md R158). -/
def Reply.andThen {α β : Type} (r : Reply α) (k : α → State → Reply β) : Reply β :=
  match r with
  | (some (.ok a), s) => k a s
  | (some (.err e), s) => (some (.err e), s)
  | (none, s) => (none, s)

/-- End the request after the last operation: `k` on a successful answer, `BUS_ERROR(e)` with the fault unchanged on a
failed one (60_exceptions.md R200 and R201), nothing more when the port is silent (R206). -/
def Reply.finish {α : Type} (r : Reply α) (k : α → State → State) : State :=
  match r with
  | (some (.ok a), s) => k a s
  | (some (.err e), s) => s.raise (.busError e)
  | (none, s) => s

/-- The port event that would come next is the one its port never completes (10_state.md R34, log 7). -/
def State.portSilent (s : State) : Bool := decide (s.silentAt = some s.trace.portEvents)

/-- The fault the simulator's set `F` holds for the next transaction (20_memory.md R62). -/
def State.simFault (s : State) : Option BusErr := s.simFaults.lookup s.trace.transactions

/-- A free draw as an answer. -/
def drawn {α : Type} : Except BusErr α → Answer α
  | .ok a => .ok a
  | .error e => .err e

/-- A transaction of the simulator: `Err(e_j)` when its index is in `F`, else `Ok` (20_memory.md R62). -/
def simulated {α : Type} (f : Option BusErr) (a : α) : Answer α :=
  match f with
  | some e => .err e
  | none => .ok a

/-- The bytes an answer delivers, as the trace records them. -/
def recorded {n : Nat} : Answer (Vector Byte n) → Answer (List Byte)
  | .ok b => .ok b.toList
  | .err e => .err e

/-- The answer to `MemRead(addr, n)`: by the free oracle any `n` bytes or any fault (20_memory.md R60), by the simulator
R62's; none when the port is silent. -/
def State.readAnswer (s : State) (addr n : Nat) : Option (Answer (Vector Byte n)) :=
  if s.portSilent then none
  else
    match s.oracle with
    | .free => some (drawn (Config.readAnswer s.trace addr n))
    | .sim => some (simulated s.simFault (s.simRegs.readBytes addr n))

/-- The answer to `MemWrite(addr, 1, v)`: by the free oracle either (20_memory.md R60), by the simulator R62's; none
when the port is silent. -/
def State.writeAnswer (s : State) (addr : Nat) (v : Byte) : Option (Answer Unit) :=
  if s.portSilent then none
  else
    match s.oracle with
    | .free => some (drawn (Config.writeAnswer s.trace addr v))
    | .sim => some (simulated s.simFault ())

/-- What a write that the port answered leaves of the simulator's register file: the byte when it succeeded, nothing
when it failed (20_memory.md R62). The free oracle keeps no registers (R60). -/
def State.simRegsAfter (s : State) (addr : Nat) (v : Byte) (ans : Answer Unit) : Memory :=
  match s.oracle, ans with
  | .sim, .ok _ => s.simRegs.write addr v
  | .sim, .err _ => s.simRegs
  | .free, _ => s.simRegs

/-- `MemRead(addr, n)`: one read transaction (10_state.md R30). -/
def memRead (addr n : Nat) (s : State) : Reply (Vector Byte n) :=
  match s.readAnswer addr n with
  | some ans => (some ans, s.record (.read addr n (recorded ans)))
  | none => (none, s.stall (.read addr n))

/-- `MemWrite(addr, 1, v)`: one write transaction (10_state.md R30). -/
def memWrite (addr : Nat) (v : Byte) (s : State) : Reply Unit :=
  match s.writeAnswer addr v with
  | some ans => (some ans, (s.setSimRegs (s.simRegsAfter addr v ans)).record (.write addr v ans))
  | none => (none, s.stall (.write addr v))

/-- `Delay(ms)`: one event, which has no error result (10_state.md R31). -/
def delay (ms : Nat) (s : State) : Reply Unit :=
  if s.portSilent then (none, s.stall (.delay ms)) else (some (.ok ()), s.record (.delay ms))

/-! ### The transport primitives (40_transport.md R103 to R106) -/

/-- `TRead(addr)` (40_transport.md R103). -/
def tRead (addr : Nat) (s : State) : Reply Byte :=
  (memRead addr 1 s).andThen fun b s1 => (some (.ok b[0]), s1)

/-- `TWrite(addr, v)` (40_transport.md R104). -/
def tWrite (addr : Nat) (v : Byte) (s : State) : Reply Unit := memWrite addr v s

/-- The sequential fallback of `TBurst`: `n` reads of one byte at ascending addresses, stopping at the first that fails,
whose bytes are discarded (40_transport.md R105). -/
def seqRead (addr : Nat) : (n : Nat) → State → Reply (Vector Byte n)
  | 0, s => (some (.ok #v[]), s)
  | n + 1, s =>
    Reply.andThen (seqRead addr n s) fun out s1 =>
      Reply.andThen (memRead (addr + n) 1 s1) fun b s2 => (some (.ok (out.push b[0])), s2)

/-- `TBurst(addr, n)` (40_transport.md R105). -/
def tBurst (addr n : Nat) (s : State) : Reply (Vector Byte n) :=
  if s.params.framed then memRead addr n s else seqRead addr n s

/-- A list of one-byte writes in order, stopping at the first that fails (42_device.md R155 and R158). -/
def writeAll : List (Nat × Byte) → State → Reply Unit
  | [], s => (some (.ok ()), s)
  | (a, v) :: ws, s => Reply.andThen (tWrite a v s) fun _ s1 => writeAll ws s1

end Sys2Proof.Machine
end

