-- ==== Sys2Proof/Machine/Builder.lean ====
section
/-! DEFINITION. The builder requests (41_config.md R135 to R141). None issues a transaction; none reads or writes the
device. -/

namespace Sys2Proof.Machine

/-- A builder setter: write the staging, answer `OK` without data (41_config.md R136 to R140). -/
def State.stage (s : State) (x : Settings) : State := (s.setStg x).respond []

/-- `CFG_NEW` (41_config.md R135). -/
def execCfgNew (s : State) : Host.Outcome State Fault Refusal := .next (s.stage Settings.default)

/-- `CFG_ODR` (41_config.md R136). -/
def execCfgOdr (code : Odr) (s : State) : Host.Outcome State Fault Refusal := .next (s.stage { s.stg with odr := code })

/-- `CFG_BW` (41_config.md R137). -/
def execCfgBw (code : Bw) (s : State) : Host.Outcome State Fault Refusal := .next (s.stage { s.stg with bw := code })

/-- `CFG_PMODE` (41_config.md R138). -/
def execCfgPmode (code : PMode) (s : State) : Host.Outcome State Fault Refusal :=
  .next (s.stage { s.stg with mode := code })

/-- `CFG_HPF` (41_config.md R139). -/
def execCfgHpf (enabled : Bool) (s : State) : Host.Outcome State Fault Refusal :=
  .next (s.stage { s.stg with hpfEn := enabled })

/-- `CFG_LPF` (41_config.md R140). -/
def execCfgLpf (enabled : Bool) (s : State) : Host.Outcome State Fault Refusal :=
  .next (s.stage { s.stg with lpfEn := enabled })

/-- `CFG_BUILD` (41_config.md R141): reject, never clamp (R144). -/
def execCfgBuild (s : State) : Host.Outcome State Fault Refusal :=
  .next (if legal s.stg then (s.setCfg (some (build s.stg))).respond (pack s.stg).bytes
    else (s.setCfg none).raise .invalidConfig)

end Sys2Proof.Machine
end

