-- ==== Sys2Proof/Machine/Conversion.lean ====
section
/-! DEFINITION. The conversion requests (43_conversion.md R186 and R189). -/

namespace Sys2Proof.Machine

/-- `CONV_RAW` (43_conversion.md R186). -/
def execConvRaw (p0 p1 p2 p3 p4 p5 : Byte) (s : State) : Host.Outcome State Fault Refusal :=
  .next (s.respond (convert s.params #v[p0, p1, p2, p3, p4, p5]).bytes)

/-- `SCALE` (43_conversion.md R189). -/
def execScale (x y z : I16) (s : State) : Host.Outcome State Fault Refusal :=
  .next (s.respond (scaledBytes s.params ⟨x, y, z⟩))

end Sys2Proof.Machine
end

