-- ==== Sys2Proof/Machine/Transport.lean ====
section
/-! DEFINITION. The host transport requests (40_transport.md R100 to R102, R108). -/

namespace Sys2Proof.Machine

/-- While a device exists it owns the transport (40_transport.md R108): the request is refused, or `k` runs. -/
def State.withTransport (s : State) (k : State) : State :=
  match s.dev with
  | .noDevice => k
  | .uninitialized => s.refuse .transportOwned
  | .ready => s.refuse .transportOwned

/-- `RDREG` (40_transport.md R100). -/
def execRdreg (addr : Byte) (s : State) : Host.Outcome State Fault Refusal :=
  .next (s.withTransport (Reply.finish (tRead addr.toNat s) fun b s1 => s1.respond [b]))

/-- `WRREG` (40_transport.md R101). -/
def execWrreg (addr data : Byte) (s : State) : Host.Outcome State Fault Refusal :=
  .next (s.withTransport (Reply.finish (tWrite addr.toNat data s) fun _ s1 => s1.respond []))

/-- `RDBURST` (40_transport.md R102). -/
def execRdburst (addr n : Byte) (s : State) : Host.Outcome State Fault Refusal :=
  .next (s.withTransport (Reply.finish (tBurst addr.toNat n.toNat s) fun b s1 => s1.respond b.toList))

end Sys2Proof.Machine
end

