-- ==== Sys2Proof/Machine/Device.lean ====
section
/-! DEFINITION. The device requests (42_device.md R150 to R172). -/

namespace Sys2Proof.Machine

/-- `DEV_NEW` (42_device.md R150): `TransportOwned` is checked before `NoConfig` (60_exceptions.md R207). -/
def execDevNew (s : State) : Host.Outcome State Fault Refusal :=
  .next (s.withTransport
    (match s.cfg with
    | none => s.refuse .noConfig
    | some c => ((s.setDevCfg (some c)).setDev .uninitialized).respond []))

/-- Steps (3) and (4) of the sequence: the settling wait, then `Ready` (42_device.md R155). -/
def settle (s : State) : State :=
  Reply.finish (delay s.params.settleMs s) fun _ s1 => (s1.setDev .ready).respond []

/-- Step (2) of the sequence and what follows: the write list of the device's config, in order (42_device.md R155). -/
def configure (c : BuiltConfig) (s : State) : State :=
  Reply.finish (writeAll (c.writes s.params) s) fun _ s1 => settle s1

/-- The initialisation sequence from step (1) (42_device.md R155 to R158), on a device with the config `c`: the state is
`Uninitialized` before the first transaction (R159). -/
def initSequence (c : BuiltConfig) (s : State) : State :=
  Reply.finish (tRead s.params.idReg (s.setDev .uninitialized)) fun b s1 =>
    if b = s.params.idExpected then configure c s1 else s1.raise .identityMismatch

/-- `DEV_INIT` (42_device.md R155). A device without a config exists in no run (10_state.md R24, log 13). -/
def execDevInit (s : State) : Host.Outcome State Fault Refusal :=
  match s.dev, s.devCfg with
  | .noDevice, _ => .next (s.refuse .noDevice)
  | .uninitialized, some c => .next (initSequence c s)
  | .ready, some c => .next (initSequence c s)
  | .uninitialized, none => .fault .deviceWithoutConfig
  | .ready, none => .fault .deviceWithoutConfig

/-- `DEV_READXYZ` (42_device.md R162): a failed read leaves the device `Ready` (R165). -/
def execDevReadxyz (s : State) : Host.Outcome State Fault Refusal :=
  .next
    (match s.dev with
    | .noDevice => s.refuse .noDevice
    | .uninitialized => s.raise .notReady
    | .ready =>
      Reply.finish (tBurst s.params.dataStart 6 s) fun b s1 => s1.respond (convert s.params b).bytes)

/-- `DEV_DROP` (42_device.md R170). -/
def execDevDrop (s : State) : Host.Outcome State Fault Refusal :=
  .next
    (match s.dev with
    | .noDevice => s.refuse .noDevice
    | .uninitialized => ((s.setDev .noDevice).setDevCfg none).respond []
    | .ready => ((s.setDev .noDevice).setDevCfg none).respond [])

end Sys2Proof.Machine
end

