-- ==== Sys2Proof/Machine/Dispatch.lean ====
section
/-! DEFINITION. The meaning of every request (30_encoding.md R85): one arm per constructor. -/

namespace Sys2Proof.Machine

/-- Perform one decoded request on the state (10_state.md R21 and R32). -/
def exec (i : Instr) (s : State) : Host.Outcome State Fault Refusal :=
  match i with
  | .rdreg addr => Sys2Proof.Machine.execRdreg addr s
  | .wrreg addr data => Sys2Proof.Machine.execWrreg addr data s
  | .rdburst addr n => Sys2Proof.Machine.execRdburst addr n s
  | .cfgNew => Sys2Proof.Machine.execCfgNew s
  | .cfgOdr code => Sys2Proof.Machine.execCfgOdr code s
  | .cfgBw code => Sys2Proof.Machine.execCfgBw code s
  | .cfgPmode code => Sys2Proof.Machine.execCfgPmode code s
  | .cfgHpf enabled => Sys2Proof.Machine.execCfgHpf enabled s
  | .cfgLpf enabled => Sys2Proof.Machine.execCfgLpf enabled s
  | .cfgBuild => Sys2Proof.Machine.execCfgBuild s
  | .devNew => Sys2Proof.Machine.execDevNew s
  | .devInit => Sys2Proof.Machine.execDevInit s
  | .devReadxyz => Sys2Proof.Machine.execDevReadxyz s
  | .devDrop => Sys2Proof.Machine.execDevDrop s
  | .convRaw p0 p1 p2 p3 p4 p5 => Sys2Proof.Machine.execConvRaw p0 p1 p2 p3 p4 p5 s
  | .scale x y z => Sys2Proof.Machine.execScale x y z s

end Sys2Proof.Machine
end

