-- ==== Sys2Proof/Machine/Perform.lean ====
section
/-! DEFINITION. Taking the request on the request port, decoding it and performing it to completion (10_state.md R21 and
R32). -/

namespace Sys2Proof.Machine

/-- Perform a request that was taken from the port: a reserved one is refused (30_encoding.md R87), any other has the
meaning of its row (R85). -/
def perform (r : Request) (s : State) : Host.Outcome State Fault Refusal :=
  match decode s.params r with
  | .ok i => exec i s
  | .error _ => .next (s.refuse .reservedEncoding)

/-- Take the next request and perform it; with none presented, the block waits (70_reset_and_hazards.md R232, log 9). -/
def takeRequest (s : State) : Host.Outcome State Fault Refusal :=
  match s.requests with
  | [] => .next s
  | r :: rest => perform r (s.accept r rest)

end Sys2Proof.Machine
end

