-- ==== Sys2Proof/Machine/Step.lean ====
section
/-! DEFINITION. One step of the block, and where a row's bits are put so that the next step performs them. -/

namespace Sys2Proof.Machine

/-- One step. A block that waits for a silent port has none (60_exceptions.md R206). -/
def step (s : State) : Host.Outcome State Fault Refusal :=
  match s.outcome with
  | .stuckOn w => .fault (.portSilent w)
  | .pending => takeRequest s
  | .responded _ => takeRequest s
  | .refusedFor _ => takeRequest s

/-- The state with a row's bits presented on the request port, in front of what the host would present next, and the
block not waiting for a port: the next step takes and performs it (log 10). -/
def State.withFetchWord (s : State) (nbits w : Nat) : State :=
  { s with requests := Request.ofBits nbits w :: s.requests, outcome := .pending }

end Sys2Proof.Machine
end

