-- ==== Sys2Proof/Machine/Assembler.lean ====
section
/-! DEFINITION. The assembler syntax and the pseudo-requests (30_encoding.md R90 and R91). The machine does not use this
file: it says which requests a line of text stands for. Spacing, the case of hexadecimal digits, and where a symbolic
name may stand are DESIGN CHOICES, log 18. -/

namespace Sys2Proof.Asm

/-- Drop spaces at the front. -/
def skipSpaces : List Char → List Char
  | [] => []
  | c :: cs => if c = ' ' then skipSpaces cs else c :: cs

/-- Drop spaces at both ends. -/
def trim (cs : List Char) : List Char := (skipSpaces (skipSpaces cs).reverse).reverse

/-- The text up to the first space, and what follows it. -/
def firstWord : List Char → List Char × List Char
  | [] => ([], [])
  | c :: cs => if c = ' ' then ([], cs) else (c :: (firstWord cs).1, (firstWord cs).2)

/-- The text cut at commas; a text without a comma is one piece. -/
def splitCommas : List Char → List (List Char)
  | [] => [[]]
  | c :: cs =>
    match splitCommas cs with
    | [] => [[c]]
    | w :: ws => if c = ',' then [] :: w :: ws else (c :: w) :: ws

/-- The operands of a line: none when nothing follows the mnemonic. -/
def operandTexts (cs : List Char) : List (List Char) :=
  if trim cs = [] then [] else (splitCommas cs).map trim

/-- The value of a digit in a base of at most 16. -/
def digit (base : Nat) (c : Char) : Option Nat :=
  let n := c.toNat
  let v := if 48 ≤ n ∧ n ≤ 57 then n - 48 else if 65 ≤ n ∧ n ≤ 70 then n - 55
    else if 97 ≤ n ∧ n ≤ 102 then n - 87 else base
  if v < base then some v else none

/-- The value of a run of digits after `acc`. -/
def digits (base : Nat) : List Char → Nat → Option Nat
  | [], acc => some acc
  | c :: cs, acc =>
    match digit base c with
    | some v => digits base cs (acc * base + v)
    | none => none

/-- A number: decimal or `0x` hexadecimal (30_encoding.md R90). -/
def number : List Char → Option Nat
  | [] => none
  | ['0', 'x'] => none
  | '0' :: 'x' :: cs => digits 16 cs 0
  | c :: cs => digits 10 (c :: cs) 0

/-- The symbolic names and the codes they stand for (30_encoding.md R90, 41_config.md R121 to R123). -/
def symbols : List (String × Byte) :=
  [("ODR_400", Odr.hz400.code), ("ODR_800", Odr.hz800.code), ("ODR_1600", Odr.hz1600.code),
   ("ODR_3200", Odr.hz3200.code), ("ODR_6400", Odr.hz6400.code),
   ("BW_200", Bw.hz200.code), ("BW_400", Bw.hz400.code), ("BW_800", Bw.hz800.code),
   ("BW_1600", Bw.hz1600.code), ("BW_3200", Bw.hz3200.code),
   ("STANDBY", PMode.standby.code), ("WAKEUP", PMode.wakeup.code), ("INSTANT_ON", PMode.instantOn.code),
   ("FULL_BW", PMode.fullBw.code), ("on", 1), ("off", 0)]

/-- The code of a symbolic name. -/
def symbol (cs : List Char) : Option Byte :=
  (symbols.find? fun row => row.1.toList == cs).map (·.2)

/-- An operand of one byte: a symbolic name, or a number below 256. -/
def byteOperand (cs : List Char) : Option Byte :=
  match symbol cs with
  | some v => some v
  | none =>
    match number cs with
    | some n => if n < 256 then some (BitVec.ofNat 8 n) else none
    | none => none

/-- An operand of `SCALE`: a signed decimal value of 16 bits (30_encoding.md R90). -/
def signedOperand : List Char → Option I16
  | '-' :: c :: cs =>
    match digits 10 (c :: cs) 0 with
    | some n => if n ≤ 32768 then some (BitVec.ofInt 16 (-(n : Int))) else none
    | none => none
  | c :: cs =>
    match digits 10 (c :: cs) 0 with
    | some n => if n < 32768 then some (BitVec.ofNat 16 n) else none
    | none => none
  | [] => none

/-- Every operand of a list, or none. -/
def allOperands {α : Type} (f : List Char → Option α) : List (List Char) → Option (List α)
  | [] => some []
  | t :: ts =>
    match f t, allOperands f ts with
    | some v, some vs => some (v :: vs)
    | _, _ => none

/-- The requests without payload: mnemonic, operation code, number of operands (30_encoding.md R85 and R90). -/
def plainRows : List (String × Byte × Nat) :=
  [("RDREG", 0x01, 1), ("WRREG", 0x02, 2), ("RDBURST", 0x03, 2), ("CFG_NEW", 0x10, 0), ("CFG_ODR", 0x11, 1),
   ("CFG_BW", 0x12, 1), ("CFG_PMODE", 0x13, 1), ("CFG_HPF", 0x14, 1), ("CFG_LPF", 0x15, 1), ("CFG_BUILD", 0x16, 0),
   ("DEV_NEW", 0x20, 0), ("DEV_INIT", 0x21, 0), ("DEV_READXYZ", 0x22, 0), ("DEV_DROP", 0x23, 0)]

/-- The request of a plain row from its operands, the first in `A`, the second in `B`. -/
def plainRequest (opc : Byte) (n : Nat) (ops : List Byte) : Option Request :=
  if ops.length = n then some (plain opc (ops.getD 0 0) (ops.getD 1 0)) else none

/-- `CONFIG odr, bw, mode, hpf, lpf` (30_encoding.md R91). -/
def configExpansion (odr bw mode hpf lpf : Byte) : List Request :=
  [plain 0x10 0 0, plain 0x11 odr 0, plain 0x12 bw 0, plain 0x13 mode 0, plain 0x14 hpf 0, plain 0x15 lpf 0,
   plain 0x16 0 0]

/-- The first request of `READ_SCALED`: `DEV_READXYZ` (30_encoding.md R91). -/
def readScaledFirst : Request := encode .devReadxyz

/-- The second request of `READ_SCALED`: `SCALE` with the response bytes of `DEV_READXYZ` as its payload, when its
status is `OK` (30_encoding.md R91). -/
def readScaledSecond : Response → Option Request
  | .ok data => some ⟨mkWord 0x31 0 0 0, data⟩
  | .busError _ => none
  | .identityMismatch => none
  | .invalidConfig => none
  | .notReady => none

/-- What `READ_SCALED` presents after its first request, from what became of that one: a refused or unanswered
`DEV_READXYZ` has no response, so nothing follows it (30_encoding.md R91, 60_exceptions.md R206 and R209). -/
def readScaledNext : ReqOutcome → Option Request
  | .pending => none
  | .responded x => readScaledSecond x
  | .refusedFor _ => none
  | .stuckOn _ => none

/-- The requests that one line of text stands for: one, or the expansion of `CONFIG` (30_encoding.md R90 and R91).
`READ_SCALED` is no fixed list of requests: its second depends on a response (`readScaledFirst`, `readScaledNext`). -/
def assemble (line : String) : Option (List Request) :=
  let w := firstWord (trim line.toList)
  let ts := operandTexts w.2
  if w.1 = "CONV_RAW".toList then
    match allOperands byteOperand ts with
    | some [b0, b1, b2, b3, b4, b5] => some [encode (.convRaw b0 b1 b2 b3 b4 b5)]
    | _ => none
  else if w.1 = "SCALE".toList then
    match allOperands signedOperand ts with
    | some [x, y, z] => some [encode (.scale x y z)]
    | _ => none
  else if w.1 = "CONFIG".toList then
    match allOperands byteOperand ts with
    | some [o, b, m, h, l] => some (configExpansion o b m h l)
    | _ => none
  else
    match plainRows.find? fun row => row.1.toList == w.1 with
    | some (_, opc, n) =>
      match allOperands byteOperand ts with
      | some ops => (plainRequest opc n ops).map ([·])
      | none => none
    | none => none

end Sys2Proof.Asm
end

