-- ==== Sys2Proof/Safety.lean ====
section
/-! DEFINITION. The terms claims use: a run that no refusal has marked, a block that does not wait for a silent port, the
transactions the bus port allows, and the invariant that every step keeps. -/

namespace Sys2Proof

/-- The length of what an answer delivers is `n` (10_state.md R30: `Ok(b)` with `len(b) = n`). -/
def Answer.delivers (n : Nat) : Answer (List Byte) → Bool
  | .ok b => decide (b.length = n)
  | .err _ => true

/-- The transactions the bus port allows (10_state.md R30), with an answer of the right length. -/
def Event.legal (p : Params) : Event → Bool
  | .read addr n ans => decide (1 ≤ n) && decide (addr + n ≤ p.space) && ans.delivers n
  | .write addr _ _ => decide (addr < p.space)
  | .request _ => true
  | .delay _ => true
  | .response _ => true

/-- The fault that a transaction's answer carries, if the event is a failed transaction. -/
def Event.fault : Event → Option BusErr
  | .read _ _ (.err e) => some e
  | .write _ _ (.err e) => some e
  | .read _ _ (.ok _) => none
  | .write _ _ (.ok _) => none
  | .request _ => none
  | .delay _ => none
  | .response _ => none

/-- The requests that use the bus or the delay port (40_transport.md section 2, 42_device.md R155 and R162). -/
def Instr.usesPorts : Instr → Bool
  | .rdreg _ | .wrreg _ _ | .rdburst _ _ | .devInit | .devReadxyz => true
  | .cfgNew | .cfgOdr _ | .cfgBw _ | .cfgPmode _ | .cfgHpf _ | .cfgLpf _ | .cfgBuild => false
  | .devNew | .devDrop | .convRaw _ _ _ _ _ _ | .scale _ _ _ => false

/-- The builder requests (41_config.md section 3). -/
def Instr.isBuilder : Instr → Bool
  | .cfgNew | .cfgOdr _ | .cfgBw _ | .cfgPmode _ | .cfgHpf _ | .cfgLpf _ | .cfgBuild => true
  | .rdreg _ | .wrreg _ _ | .rdburst _ _ | .devNew | .devInit | .devReadxyz | .devDrop => false
  | .convRaw _ _ _ _ _ _ | .scale _ _ _ => false

/-- The most port events a request may have: one per register of a burst, four transactions and a delay for `DEV_INIT`
(42_device.md R172). -/
def Instr.maxPortEvents : Instr → Nat
  | .rdreg _ => 1
  | .wrreg _ _ => 1
  | .rdburst _ n => n.toNat
  | .devInit => 5
  | .devReadxyz => 6
  | .cfgNew | .cfgOdr _ | .cfgBw _ | .cfgPmode _ | .cfgHpf _ | .cfgLpf _ | .cfgBuild => 0
  | .devNew | .devDrop | .convRaw _ _ _ _ _ _ | .scale _ _ _ => 0

end Sys2Proof

namespace Sys2Proof.Machine

/-- No request of the run was refused; a run whose mark is set satisfies no claim (60_exceptions.md R209). -/
def State.unmarked (s : State) : Bool := !s.refused

/-- The block waits for a port that does not answer (60_exceptions.md R206). -/
def State.stuck (s : State) : Bool :=
  match s.outcome with
  | .stuckOn _ => true
  | .pending => false
  | .responded _ => false
  | .refusedFor _ => false

/-- The run is safe so far: unmarked and not stuck. -/
def State.safe (s : State) : Bool := s.unmarked && !s.stuck

/-- The invariant: legal parameters; a device exactly when it has a config (10_state.md R24); only built configs, as
41_config.md R131 defines them; a canonical register file of the simulator inside the register space; and a trace of
transactions that the bus port allows (10_state.md R30). -/
structure State.Inv (s : State) : Prop where
  params_wf : s.params.wf = true
  device_iff_config : s.dev = .noDevice ↔ s.devCfg = none
  cfg_wf : ∀ c, s.cfg = some c → c.wf = true
  devCfg_wf : ∀ c, s.devCfg = some c → c.wf = true
  simRegs_wf : s.simRegs.wf = true
  simRegs_inside : ∀ a, s.params.space ≤ a → s.simRegs.read a = Memory.unlisted
  trace_legal : ∀ e, e ∈ s.trace → e.legal s.params = true

/-- The state after successful reads of one byte each at `addr`, `addr + 1`, …, which delivered `bs` (40_transport.md
R103 and R105). -/
def State.afterReads (s : State) (addr : Nat) (bs : List Byte) : State :=
  { s with trace := s.trace ++ bs.mapIdx fun k b => .read (addr + k) 1 (.ok [b]) }

/-- The state after a successful write of `v` to `addr` (40_transport.md R104). -/
def State.afterWrite (s : State) (addr : Nat) (v : Byte) : State :=
  { s with simRegs := s.simRegsAfter addr v (.ok ()), trace := s.trace ++ [.write addr v (.ok ())] }

/-- The reason for which a request is refused in a state, if any, in the order of its pseudocode (60_exceptions.md R207
and R209). -/
def refusalOf (i : Instr) (s : State) : Option RefusalReason :=
  match i with
  | .rdreg _ => if s.dev = .noDevice then none else some .transportOwned
  | .wrreg _ _ => if s.dev = .noDevice then none else some .transportOwned
  | .rdburst _ _ => if s.dev = .noDevice then none else some .transportOwned
  | .devNew => if s.dev = .noDevice then (if s.cfg = none then some .noConfig else none) else some .transportOwned
  | .devInit => if s.dev = .noDevice then some .noDevice else none
  | .devReadxyz => if s.dev = .noDevice then some .noDevice else none
  | .devDrop => if s.dev = .noDevice then some .noDevice else none
  | .cfgNew | .cfgOdr _ | .cfgBw _ | .cfgPmode _ | .cfgHpf _ | .cfgLpf _ | .cfgBuild => none
  | .convRaw _ _ _ _ _ _ => none
  | .scale _ _ _ => none

/-- The states a run reaches from reset, with the host presenting requests as it likes between steps (10_state.md R32
and R34). The host writes the request stream and nothing else. -/
inductive Reachable : State → Prop where
  | reset : Reachable State.reset
  | host (s : State) (rs : List Request) : Reachable s → Reachable (s.setRequests rs)
  | step (s t : State) : Reachable s → Machine.step s = .next t → Reachable t

end Sys2Proof.Machine
end

