-- ==== Sys2Proof/Certificates/Slice0/Obligations.lean ====
section
/-! DEFINITION. The statements for the provers, from the numbered rules of spec/, file by file. Where a docstring says so,
a clause is the model's choice or an inference the spec marks as derived; the log entry or rule is named there. -/

open Sys2Proof Sys2Proof.Machine

/-! ### Reset, the step and the invariant -/

/-- 70_reset_and_hazards.md R230: every field of `st` at its reset value, and no event. -/
def Obligations.ResetLeavesTheStatedValues : Prop :=
  State.reset.stg = ⟨.hz400, .hz200, .fullBw, true, true⟩ ∧ State.reset.cfg = none ∧ State.reset.dev = .noDevice ∧
    State.reset.devCfg = none ∧ State.reset.refused = false ∧ State.reset.trace = []

/-- The invariant holds at reset (R24 is marked as derived by the spec; the parameters are the decided ones, log 11). -/
def Obligations.ResetSatisfiesTheInvariant : Prop := State.reset.Inv

/-- Every step keeps the invariant: the device and its config go together (10_state.md R24, which the spec derives), only
built configs are held (41_config.md R131), the simulator's registers stay canonical and inside the register space, and
every transaction ever recorded is one the bus port allows (10_state.md R30). -/
def Obligations.StepKeepsTheInvariant : Prop :=
  ∀ s t : State, s.Inv → step s = .next t → t.Inv

/-- In a state with the invariant, a block that is not stuck has a step: no request ends in a stop. The faults excluded
are the model's (logs 8 and 13). -/
def Obligations.UnstuckStatesHaveAStep : Prop :=
  ∀ s : State, s.Inv → s.stuck = false → ∃ t, step s = .next t

/-- From reset, whatever the host presents, every reachable state satisfies the invariant and has a step. What a run is
(the host may replace the requests still to come between steps, and writes nothing else) is the model's choice (log 17),
and so is that the ports never fall silent from reset (log 7). -/
def Obligations.ReachableStatesAreSoundAndHaveAStep : Prop :=
  ∀ s : State, Reachable s → s.Inv ∧ ∃ t, step s = .next t

/-- A step performs the decoded request on the state that has taken it from the port: the request leaves the stream, the
outcome is pending, and the trace records the request (10_state.md R32 and R33). -/
def Obligations.StepPerformsTheDecodedRequest : Prop :=
  ∀ (s : State) (r : Request) (rest : List Request) (i : Instr),
    s.stuck = false → s.requests = r :: rest → decode s.params r = .ok i →
    i.wf s.params = true ∧
    step s = exec i { s with requests := rest, outcome := .pending, trace := s.trace ++ [.request r] }

/-- With no request presented the block waits: the model's step leaves the state as it is (70_reset_and_hazards.md R232,
log 9); a block that waits for a silent port has no step (60_exceptions.md R206, log 8). -/
def Obligations.StepWithoutARequest : Prop :=
  (∀ s : State, s.stuck = false → s.requests = [] → step s = .next s) ∧
  (∀ (s : State) (w : PortWait), s.outcome = .stuckOn w → step s = .fault (.portSilent w))

/-- A step that takes a request ends it: with one response, which is the last event of the trace, with a refusal, or
waiting for a silent port; and the trace only grows, by the request first (10_state.md R32 and R33). The third way to end,
a next state that waits where 60_exceptions.md R206 says that the block has no step, is the model's choice (log 8); that a
refused request is recorded in the trace is the model's inference (log 12). -/
def Obligations.StepEndsTheRequestItTakes : Prop :=
  ∀ (s t : State) (r : Request) (rest : List Request),
    s.stuck = false → s.requests = r :: rest → step s = .next t →
    t.requests = rest ∧
    ∃ es : List Event, t.trace = s.trace ++ .request r :: es ∧ (∀ q, Event.request q ∉ es) ∧
      ((∃ (x : Response) (fs : List Event), t.outcome = .responded x ∧ es = fs ++ [.response x] ∧
          ∀ y, Event.response y ∉ fs) ∨
       (∃ why, t.outcome = .refusedFor why ∧ es = []) ∨
       (∃ w, t.outcome = .stuckOn w ∧ ∀ y, Event.response y ∉ es))

/-! ### Encoding -/

/-- Decoding the encoding of a well-formed request gives it back, for every request and every operand (30_encoding.md
R80 to R86). -/
def Obligations.DecodeOfEncode : Prop :=
  ∀ (p : Params) (i : Instr), i.wf p = true → decode p (encode i) = .ok i

/-- Every request has at most one encoding: what decodes to a request is its encoding, and the request is well-formed. -/
def Obligations.EncodeOfDecode : Prop :=
  ∀ (p : Params) (r : Request) (i : Instr), decode p r = .ok i → i.wf p = true ∧ encode i = r

/-- At `ADDR_WIDTH = 7` the decoder accepts a request as a mnemonic exactly when it matches a row of that mnemonic in
spec/opcode_table.json: `word & mask = match`, the row's further constraint, and the payload length. -/
def Obligations.DecoderFollowsTheOpcodeTable : Prop :=
  ∀ (v : Variant) (r : Request) (m : String),
    (∃ i, decode (Params.decided v) r = .ok i ∧ i.mnemonic = m) ↔
    (∃ row ∈ opcodeTable, row.mnemonic = m ∧ row.matches r = true)

/-- 30_encoding.md section 3 (R87): the clauses that make a request reserved, written out over its fields; the decoder
rejects exactly those requests, and a step on one sets the mark, with no response and no transaction. That this is a next
state, after which the run goes on, is the model's choice (log 2), and so is the recorded reason (log 3); that the request
is recorded in the trace is the model's inference (log 12). -/
def Obligations.ReservedRequestsAreRefused : Prop :=
  (∀ (p : Params) (r : Request),
    (∃ why, decode p r = .error why) ↔
      (r.opc ∉ ([0x01, 0x02, 0x03, 0x10, 0x11, 0x12, 0x13, 0x14, 0x15, 0x16, 0x20, 0x21, 0x22, 0x23, 0x30, 0x31]
          : List Byte)
        ∨ (r.opc ∈ ([0x10, 0x16, 0x20, 0x21, 0x22, 0x23, 0x30, 0x31] : List Byte) ∧ r.a ≠ 0)
        ∨ (r.opc ∉ ([0x02, 0x03] : List Byte) ∧ r.b ≠ 0)
        ∨ r.c ≠ 0
        ∨ (r.opc ∈ ([0x01, 0x02, 0x03] : List Byte) ∧ p.space ≤ r.a.toNat)
        ∨ (r.opc = 0x03 ∧ (r.b = 0 ∨ p.space < r.a.toNat + r.b.toNat))
        ∨ (r.opc ∈ ([0x11, 0x12] : List Byte) ∧ 4 < r.a.toNat)
        ∨ (r.opc = 0x13 ∧ 3 < r.a.toNat)
        ∨ (r.opc ∈ ([0x14, 0x15] : List Byte) ∧ 1 < r.a.toNat)
        ∨ r.payload.length ≠ if r.opc = 0x30 ∨ r.opc = 0x31 then 6 else 0)) ∧
  (∀ (s : State) (r : Request) (rest : List Request) (why : ReservedWhy),
    s.stuck = false → s.requests = r :: rest → decode s.params r = .error why →
    step s = .next { s with requests := rest, trace := s.trace ++ [.request r], refused := true,
                            outcome := .refusedFor .reservedEncoding })

/-- Words written out in 95_test_vectors.md decode to the requests they stand for. -/
def Obligations.DecodesTheWrittenOutWords : Prop :=
  ∀ v : Variant,
    decode (Params.decided v) ⟨0x017F0000, []⟩ = .ok (.rdreg 0x7F) ∧
    decode (Params.decided v) ⟨0x023F0300, []⟩ = .ok (.wrreg 0x3F 0x03) ∧
    decode (Params.decided v) ⟨0x03080600, []⟩ = .ok (.rdburst 0x08 6) ∧
    decode (Params.decided v) ⟨0x11030000, []⟩ = .ok (.cfgOdr .hz3200) ∧
    decode (Params.decided v) ⟨0x21000000, []⟩ = .ok .devInit ∧
    decode (Params.decided v) ⟨0x31000000, [0x00, 0x01, 0xFF, 0xFF, 0x01, 0x23]⟩ = .ok (.scale 1 (-1) 291)

/-- 30_encoding.md R91: `CONFIG` expands to the seven builder requests in order. `READ_SCALED` expands to `DEV_READXYZ`,
then, when that request answered `OK` with six bytes, `SCALE` with those very bytes as its payload, which is the scaling
of the sample they encode; after any other end of `DEV_READXYZ` nothing follows. (The form, a first request and a function
of what became of it, is log 18.) -/
def Obligations.PseudoRequestsExpand : Prop :=
  (∀ (p : Params) (o : Odr) (b : Bw) (m : PMode) (h l : Bool),
    (Asm.configExpansion o.code b.code m.code (enableCode h) (enableCode l)).map (decode p) =
      [.ok .cfgNew, .ok (.cfgOdr o), .ok (.cfgBw b), .ok (.cfgPmode m), .ok (.cfgHpf h), .ok (.cfgLpf l),
       .ok .cfgBuild]) ∧
  (∀ p : Params, decode p Asm.readScaledFirst = .ok .devReadxyz) ∧
  (∀ s t : State, exec .devReadxyz s = .next t →
    (∀ d : List Byte, t.outcome = .responded (.ok d) →
      Asm.readScaledNext t.outcome = some ⟨0x31000000, d⟩ ∧ d.length = 6 ∧
      ∃ x : Sample, d = enc16 x.x ++ enc16 x.y ++ enc16 x.z ∧
        ∀ p : Params, decode p ⟨0x31000000, d⟩ = .ok (.scale x.x x.y x.z)) ∧
    ((∀ d : List Byte, t.outcome ≠ .responded (.ok d)) → Asm.readScaledNext t.outcome = none))

/-! ### The ports and the transport -/

/-- 40_transport.md R103 and R104: `TRead` is one read of one byte and yields its byte or its fault, `TWrite` one write;
neither changes anything but the trace (and, for a write, the simulator's registers behind the port). -/
def Obligations.TransportPrimitivesAreOneTransaction : Prop :=
  (∀ (s : State) (addr : Nat) (b : Byte), s.readAnswer addr 1 = some (.ok #v[b]) →
    tRead addr s = (some (.ok b), { s with trace := s.trace ++ [.read addr 1 (.ok [b])] })) ∧
  (∀ (s : State) (addr : Nat) (e : BusErr), s.readAnswer addr 1 = some (.err e) →
    tRead addr s = (some (.err e), { s with trace := s.trace ++ [.read addr 1 (.err e)] })) ∧
  (∀ (s : State) (addr : Nat) (v : Byte), s.writeAnswer addr v = some (.ok ()) →
    tWrite addr v s = (some (.ok ()), { s with simRegs := s.simRegsAfter addr v (.ok ()),
                                               trace := s.trace ++ [.write addr v (.ok ())] })) ∧
  (∀ (s : State) (addr : Nat) (v : Byte) (e : BusErr), s.writeAnswer addr v = some (.err e) →
    tWrite addr v s = (some (.err e), { s with trace := s.trace ++ [.write addr v (.err e)] }))

/-- 20_memory.md R62: transaction `j` of the simulator answers `Err(e_j)` when `j` is in `F`; otherwise a read delivers
the registers in ascending order and a write puts its byte, and a failed write leaves the registers unchanged. -/
def Obligations.SimulatorAnswersTransactions : Prop :=
  ∀ s : State, s.oracle = .sim → s.portSilent = false →
    (∀ (e : BusErr) (a n : Nat), s.simFaults.lookup s.trace.transactions = some e →
      memRead a n s = (some (.err e), { s with trace := s.trace ++ [.read a n (.err e)] })) ∧
    (∀ (e : BusErr) (a : Nat) (v : Byte), s.simFaults.lookup s.trace.transactions = some e →
      memWrite a v s = (some (.err e), { s with trace := s.trace ++ [.write a v (.err e)] })) ∧
    (∀ a n : Nat, s.simFaults.lookup s.trace.transactions = none →
      ∃ b : Vector Byte n, b.toList = (List.range n).map (fun k => s.simRegs.read (a + k)) ∧
        memRead a n s = (some (.ok b), { s with trace := s.trace ++ [.read a n (.ok b.toList)] })) ∧
    (∀ (a : Nat) (v : Byte), s.simFaults.lookup s.trace.transactions = none →
      ∃ m : Memory, memWrite a v s =
          (some (.ok ()), { s with simRegs := m, trace := s.trace ++ [.write a v (.ok ())] }) ∧
        (∀ b, b ≠ a → m.read b = s.simRegs.read b) ∧ (s.simRegs.wf = true → m.read a = v ∧ m.wf = true))

/-- 10_state.md R31: `Delay(ms)` always completes when its provider returns, has no error result, and is recorded with
its duration. -/
def Obligations.DelayIsRecordedWithItsDuration : Prop :=
  ∀ (s : State) (ms : Nat), s.portSilent = false →
    delay ms s = (some (.ok ()), { s with trace := s.trace ++ [.delay ms] })

/-- 60_exceptions.md R206: a silent port leaves the block waiting in the request, with no event, no response and no
further step, and a request that ends so has presented no response. When the port is silent at the first event of a
request, nothing of the state changes but the outcome, and the device state that `DEV_INIT` writes before its first
transaction (42_device.md R159). That a wait is a next state, and the step after it a fault, where R206 says that the block
has no step, is the model's choice (log 8). -/
def Obligations.SilentPortsLeaveTheBlockStuck : Prop :=
  (∀ (s : State) (a n : Nat), s.portSilent = true →
    memRead a n s = (none, { s with outcome := .stuckOn (.read a n) })) ∧
  (∀ (s : State) (a : Nat) (v : Byte), s.portSilent = true →
    memWrite a v s = (none, { s with outcome := .stuckOn (.write a v) })) ∧
  (∀ (s : State) (ms : Nat), s.portSilent = true →
    delay ms s = (none, { s with outcome := .stuckOn (.delay ms) })) ∧
  (∀ (i : Instr) (s t : State) (w : PortWait), exec i s = .next t → t.outcome = .stuckOn w →
    t.portSilent = true ∧ step t = .fault (.portSilent w) ∧
    ∃ es : List Event, t.trace = s.trace ++ es ∧ ∀ x, Event.response x ∉ es) ∧
  (∀ (s : State) (addr : Byte), s.dev = .noDevice → s.portSilent = true →
    exec (.rdreg addr) s = .next { s with outcome := .stuckOn (.read addr.toNat 1) }) ∧
  (∀ (s : State) (addr data : Byte), s.dev = .noDevice → s.portSilent = true →
    exec (.wrreg addr data) s = .next { s with outcome := .stuckOn (.write addr.toNat data) }) ∧
  (∀ (s : State) (addr n : Byte), s.dev = .noDevice → s.portSilent = true → 1 ≤ n.toNat →
    exec (.rdburst addr n) s = .next { s with
      outcome := .stuckOn (.read addr.toNat (if s.params.framed then n.toNat else 1)) }) ∧
  (∀ s : State, s.dev = .ready → s.portSilent = true →
    exec .devReadxyz s = .next { s with
      outcome := .stuckOn (.read s.params.dataStart (if s.params.framed then 6 else 1)) }) ∧
  (∀ (s : State) (c : BuiltConfig), s.dev ≠ .noDevice → s.devCfg = some c → s.portSilent = true →
    exec .devInit s = .next { s with dev := .uninitialized, outcome := .stuckOn (.read s.params.idReg 1) })

/-- 40_transport.md R100: `RDREG`, with its encoding, its refusal, and one read of one byte, which answers the byte or
the fault. (For a silent port see SilentPortsLeaveTheBlockStuck.) -/
def Obligations.RdregReadsOneRegister : Prop :=
  ∀ (s : State) (addr : Byte),
    (addr.toNat < s.params.space → decode s.params ⟨mkWord 0x01 addr 0 0, []⟩ = .ok (.rdreg addr)) ∧
    (s.params.space ≤ addr.toNat → decode s.params ⟨mkWord 0x01 addr 0 0, []⟩ = .error .addressTooWide) ∧
    (s.dev ≠ .noDevice →
      exec (.rdreg addr) s = .next { s with refused := true, outcome := .refusedFor .transportOwned }) ∧
    (∀ b : Byte, s.dev = .noDevice → s.readAnswer addr.toNat 1 = some (.ok #v[b]) →
      exec (.rdreg addr) s = .next { s with
        outcome := .responded (.ok [b]),
        trace := s.trace ++ [.read addr.toNat 1 (.ok [b]), .response (.ok [b])] }) ∧
    (∀ e : BusErr, s.dev = .noDevice → s.readAnswer addr.toNat 1 = some (.err e) →
      exec (.rdreg addr) s = .next { s with
        outcome := .responded (.busError e),
        trace := s.trace ++ [.read addr.toNat 1 (.err e), .response (.busError e)] })

/-- 40_transport.md R101: `WRREG`, with its encoding, its refusal, and one write of one byte, answered `OK` without data
or with the fault. Every register of the simulator but the one written reads as before; in the simulator the written one
reads as the byte. -/
def Obligations.WrregWritesOneRegister : Prop :=
  ∀ (s : State) (addr data : Byte),
    (addr.toNat < s.params.space → decode s.params ⟨mkWord 0x02 addr data 0, []⟩ = .ok (.wrreg addr data)) ∧
    (s.dev ≠ .noDevice →
      exec (.wrreg addr data) s = .next { s with refused := true, outcome := .refusedFor .transportOwned }) ∧
    (s.dev = .noDevice → s.writeAnswer addr.toNat data = some (.ok ()) →
      ∃ m : Memory, exec (.wrreg addr data) s = .next { s with
          outcome := .responded (.ok []),
          simRegs := m,
          trace := s.trace ++ [.write addr.toNat data (.ok ()), .response (.ok [])] } ∧
        (∀ a, a ≠ addr.toNat → m.read a = s.simRegs.read a) ∧
        (s.oracle = .free → m = s.simRegs) ∧
        (s.oracle = .sim → s.simRegs.wf = true → m.read addr.toNat = data)) ∧
    (∀ e : BusErr, s.dev = .noDevice → s.writeAnswer addr.toNat data = some (.err e) →
      exec (.wrreg addr data) s = .next { s with
        outcome := .responded (.busError e),
        trace := s.trace ++ [.write addr.toNat data (.err e), .response (.busError e)] })

/-- 40_transport.md R102 and R105: `RDBURST`, with its encoding and its reserved operands. On a bus that frames bursts:
one read of `n` registers. On one that does not: one-byte reads at ascending addresses, all of which succeed with the
bytes `bs`, or of which the first `bs.length` succeed and the next fails: then no further read and no bytes. -/
def Obligations.RdburstReadsContiguousRegisters : Prop :=
  ∀ (s : State) (addr n : Byte),
    (1 ≤ n.toNat → addr.toNat + n.toNat ≤ s.params.space →
      decode s.params ⟨mkWord 0x03 addr n 0, []⟩ = .ok (.rdburst addr n)) ∧
    (n = 0 ∨ s.params.space < addr.toNat + n.toNat → ∃ why, decode s.params ⟨mkWord 0x03 addr n 0, []⟩ = .error why) ∧
    (s.dev ≠ .noDevice →
      exec (.rdburst addr n) s = .next { s with refused := true, outcome := .refusedFor .transportOwned }) ∧
    (∀ b : Vector Byte n.toNat, s.dev = .noDevice → s.params.framed = true →
      s.readAnswer addr.toNat n.toNat = some (.ok b) →
      exec (.rdburst addr n) s = .next { s with
        outcome := .responded (.ok b.toList),
        trace := s.trace ++ [.read addr.toNat n.toNat (.ok b.toList), .response (.ok b.toList)] }) ∧
    (∀ e : BusErr, s.dev = .noDevice → s.params.framed = true → s.readAnswer addr.toNat n.toNat = some (.err e) →
      exec (.rdburst addr n) s = .next { s with
        outcome := .responded (.busError e),
        trace := s.trace ++ [.read addr.toNat n.toNat (.err e), .response (.busError e)] }) ∧
    (∀ bs : List Byte, s.dev = .noDevice → s.params.framed = false → bs.length = n.toNat →
      (∀ (k : Nat) (h : k < bs.length),
        (s.afterReads addr.toNat (bs.take k)).readAnswer (addr.toNat + k) 1 = some (.ok #v[bs[k]])) →
      exec (.rdburst addr n) s = .next { s.afterReads addr.toNat bs with
        outcome := .responded (.ok bs),
        trace := (s.afterReads addr.toNat bs).trace ++ [.response (.ok bs)] }) ∧
    (∀ (bs : List Byte) (e : BusErr), s.dev = .noDevice → s.params.framed = false → bs.length < n.toNat →
      (∀ (k : Nat) (h : k < bs.length),
        (s.afterReads addr.toNat (bs.take k)).readAnswer (addr.toNat + k) 1 = some (.ok #v[bs[k]])) →
      (s.afterReads addr.toNat bs).readAnswer (addr.toNat + bs.length) 1 = some (.err e) →
      exec (.rdburst addr n) s = .next { s.afterReads addr.toNat bs with
        outcome := .responded (.busError e),
        trace := (s.afterReads addr.toNat bs).trace ++
          [.read (addr.toNat + bs.length) 1 (.err e), .response (.busError e)] })

/-- 20_memory.md R55: the bytes of a burst come in ascending address order, framed or by the sequential fallback alike
(said with the simulator, whose register contents are known). Nothing else of the state changes. -/
def Obligations.BurstBytesAscendEitherWay : Prop :=
  ∀ (s : State) (addr n : Byte), s.oracle = .sim → s.simFaults = [] → s.silentAt = none → s.dev = .noDevice →
    ∃ tr : Trace, exec (.rdburst addr n) s = .next { s with
      outcome := .responded (.ok ((List.range n.toNat).map fun k => s.simRegs.read (addr.toNat + k))), trace := tr }

/-- 40_transport.md R108: while a device exists the host transport requests are refused, without a transaction. -/
def Obligations.DeviceOwnsTheTransport : Prop :=
  ∀ (s : State) (addr data n : Byte), s.dev ≠ .noDevice →
    exec (.rdreg addr) s = .next { s with refused := true, outcome := .refusedFor .transportOwned } ∧
    exec (.wrreg addr data) s = .next { s with refused := true, outcome := .refusedFor .transportOwned } ∧
    exec (.rdburst addr n) s = .next { s with refused := true, outcome := .refusedFor .transportOwned }

/-! ### The register map and the builder -/

/-- 41_config.md R126 to R128 (layouts the spec marks as from general knowledge, log 16): the named fields of each
register cover its eight bits exactly once, and the packed byte holds in every field what the layout tables say, 0 in
the fields the encoder does not own. -/
def Obligations.PackedBytesFollowTheLayouts : Prop :=
  (∀ (g : ConfReg) (k : Nat), k < 8 →
    ∃! f : ChipField, f.pos.reg = g ∧ f.pos.lo ≤ k ∧ k < f.pos.lo + f.pos.width) ∧
  (∀ (s : Settings) (f : ChipField),
    ((pack s).byte f.pos.reg).toNat / 2 ^ f.pos.lo % 2 ^ f.pos.width = f.written s)

/-- 41_config.md section 1: the mask and shift table of R129 with its `put` and `get` (the table is fixed at the spec's
decided values, log 16), and two inferences from them: a field put in place and got back is its value in its width, and
different fields of one register do not touch each other. -/
def Obligations.MaskAndShiftFieldsAreIndependent : Prop :=
  (Field.odr.pos = ⟨.timing, 5, 0xE0, 3⟩ ∧ Field.bandwidth.pos = ⟨.measure, 0, 0x07, 3⟩ ∧
    Field.mode.pos = ⟨.powerCtl, 0, 0x03, 2⟩ ∧ Field.hpfDisable.pos = ⟨.powerCtl, 2, 0x04, 1⟩ ∧
    Field.lpfDisable.pos = ⟨.powerCtl, 3, 0x08, 1⟩) ∧
  (∀ (f : Field) (v : Byte), f.put v = (v <<< f.pos.shift) &&& f.pos.mask ∧
    f.get v = (v &&& f.pos.mask) >>> f.pos.shift) ∧
  (∀ (f : Field) (v : Byte), (f.get (f.put v)).toNat = v.toNat % 2 ^ f.pos.width) ∧
  (∀ (f g : Field) (v w : Byte), f ≠ g → f.pos.reg = g.pos.reg → f.get (g.put w ||| f.put v) = f.get (f.put v))

/-- 41_config.md R134 (the converse at its end is marked as derived by the spec): `unpack` answers none exactly for a
reserved rate or bandwidth code; what it answers holds the fields; unnamed bits are ignored; the round trip recovers the
settings, and the converse holds exactly when every bit the table does not name is 0. -/
def Obligations.UnpackRecoversSettings : Prop :=
  (∀ k : Packed, unpack k = none ↔ 4 < (Field.odr.get k.timing).toNat ∨ 4 < (Field.bandwidth.get k.measure).toNat) ∧
  (∀ (k : Packed) (s : Settings), unpack k = some s →
    s.odr.code = Field.odr.get k.timing ∧ s.bw.code = Field.bandwidth.get k.measure ∧
    s.mode.code = Field.mode.get k.powerCtl ∧ (s.hpfEn = true ↔ Field.hpfDisable.get k.powerCtl = 0) ∧
    (s.lpfEn = true ↔ Field.lpfDisable.get k.powerCtl = 0)) ∧
  (∀ s : Settings, unpack (pack s) = some s) ∧
  (∀ (k : Packed) (s : Settings), unpack k = some s →
    (pack s = k ↔ k.timing &&& 0x1F = 0 ∧ k.measure &&& 0xF8 = 0 ∧ k.powerCtl &&& 0xF0 = 0))

/-- 41_config.md R133 (the half-rate limit is the spec's reading, marked as general knowledge, log 16): legal is
"bandwidth at most half the rate", whatever the mode and the filters. -/
def Obligations.LegalMeansBandwidthAtMostHalfTheRate : Prop :=
  ∀ s : Settings, legal s = true ↔ 2 * s.bw.hz ≤ s.odr.hz

/-- 41_config.md R135: `CFG_NEW`, with its encoding. -/
def Obligations.CfgNewRestoresTheDefaults : Prop :=
  (∀ p : Params, decode p ⟨0x10000000, []⟩ = .ok .cfgNew) ∧
  (∀ s : State, exec .cfgNew s = .next { s with
    stg := ⟨.hz400, .hz200, .fullBw, true, true⟩,
    outcome := .responded (.ok []), trace := s.trace ++ [.response (.ok [])] })

/-- 41_config.md R136, R137 and R138: the rate, bandwidth and mode setters with their encodings and reserved codes; each
writes its own staging field, whatever the combination, and answers `OK`. (Which code is which setting is
SettingCodesAreTheListedOnes.) -/
def Obligations.RateBandwidthAndModeSettersWriteTheStaging : Prop :=
  (∀ (p : Params) (o : Odr), decode p ⟨mkWord 0x11 o.code 0 0, []⟩ = .ok (.cfgOdr o)) ∧
  (∀ (p : Params) (b : Bw), decode p ⟨mkWord 0x12 b.code 0 0, []⟩ = .ok (.cfgBw b)) ∧
  (∀ (p : Params) (m : PMode), decode p ⟨mkWord 0x13 m.code 0 0, []⟩ = .ok (.cfgPmode m)) ∧
  (∀ (p : Params) (c : Byte), 4 < c.toNat → decode p ⟨mkWord 0x11 c 0 0, []⟩ = .error .badOperand ∧
    decode p ⟨mkWord 0x12 c 0 0, []⟩ = .error .badOperand) ∧
  (∀ (p : Params) (c : Byte), 3 < c.toNat → decode p ⟨mkWord 0x13 c 0 0, []⟩ = .error .badOperand) ∧
  (∀ (s : State) (o : Odr), exec (.cfgOdr o) s = .next { s with
    stg := { s.stg with odr := o }, outcome := .responded (.ok []), trace := s.trace ++ [.response (.ok [])] }) ∧
  (∀ (s : State) (b : Bw), exec (.cfgBw b) s = .next { s with
    stg := { s.stg with bw := b }, outcome := .responded (.ok []), trace := s.trace ++ [.response (.ok [])] }) ∧
  (∀ (s : State) (m : PMode), exec (.cfgPmode m) s = .next { s with
    stg := { s.stg with mode := m }, outcome := .responded (.ok []), trace := s.trace ++ [.response (.ok [])] })

/-- 41_config.md R139 and R140: the filter setters with their encodings and reserved codes; a disabled filter sets its
disable bit in the packed power-control byte. -/
def Obligations.FilterSettersWriteTheStaging : Prop :=
  (∀ (p : Params) (h : Bool), decode p ⟨mkWord 0x14 (if h then 1 else 0) 0 0, []⟩ = .ok (.cfgHpf h) ∧
    decode p ⟨mkWord 0x15 (if h then 1 else 0) 0 0, []⟩ = .ok (.cfgLpf h)) ∧
  (∀ (p : Params) (c : Byte), 1 < c.toNat → decode p ⟨mkWord 0x14 c 0 0, []⟩ = .error .badOperand ∧
    decode p ⟨mkWord 0x15 c 0 0, []⟩ = .error .badOperand) ∧
  (∀ (s : State) (h : Bool), exec (.cfgHpf h) s = .next { s with
    stg := { s.stg with hpfEn := h }, outcome := .responded (.ok []), trace := s.trace ++ [.response (.ok [])] }) ∧
  (∀ (s : State) (h : Bool), exec (.cfgLpf h) s = .next { s with
    stg := { s.stg with lpfEn := h }, outcome := .responded (.ok []), trace := s.trace ++ [.response (.ok [])] }) ∧
  (∀ x : Settings, ((pack x).powerCtl.getLsbD 2 = !x.hpfEn) ∧ ((pack x).powerCtl.getLsbD 3 = !x.lpfEn))

/-- 41_config.md R141: `CFG_BUILD`, with its encoding: legal settings are packed, kept and answered; illegal ones leave no
built config and answer `INVALID_CONFIG`; the staging stays, and no transaction is issued. -/
def Obligations.CfgBuildValidatesAndPacks : Prop :=
  (∀ p : Params, decode p ⟨0x16000000, []⟩ = .ok .cfgBuild) ∧
  (∀ s : State, s.stg.bw.code.toNat ≤ s.stg.odr.code.toNat →
    exec .cfgBuild s = .next { s with
      cfg := some ⟨s.stg, pack s.stg⟩,
      outcome := .responded (.ok [(pack s.stg).timing, (pack s.stg).measure, (pack s.stg).powerCtl]),
      trace := s.trace ++ [.response (.ok [(pack s.stg).timing, (pack s.stg).measure, (pack s.stg).powerCtl])] }) ∧
  (∀ s : State, s.stg.odr.code.toNat < s.stg.bw.code.toNat →
    exec .cfgBuild s = .next { s with
      cfg := none, outcome := .responded .invalidConfig, trace := s.trace ++ [.response .invalidConfig] })

/-- 41_config.md section 3: a builder request is legal in every device state, issues no event but its response, and
neither reads nor writes the device: on another device state and config it does the same. -/
def Obligations.BuilderRequestsIgnoreBusAndDevice : Prop :=
  ∀ (i : Instr) (s : State) (d : DevState) (c : Option BuiltConfig), i.isBuilder = true →
    ∃ (t : State) (x : Response), exec i s = .next t ∧ t.outcome = .responded x ∧
      t.trace = s.trace ++ [.response x] ∧ t.dev = s.dev ∧ t.devCfg = s.devCfg ∧ t.refused = s.refused ∧
      t.simRegs = s.simRegs ∧
      exec i { s with dev := d, devCfg := c } = .next { t with dev := d, devCfg := c }

/-! ### The device -/

/-- 42_device.md R150: `DEV_NEW`, with its encoding: refused `TransportOwned`, then `NoConfig`; otherwise the device takes
a copy of the built config, is `Uninitialized`, and no transaction is issued. -/
def Obligations.DevNewConstructsTheDevice : Prop :=
  (∀ p : Params, decode p ⟨0x20000000, []⟩ = .ok .devNew) ∧
  (∀ s : State, s.dev ≠ .noDevice →
    exec .devNew s = .next { s with refused := true, outcome := .refusedFor .transportOwned }) ∧
  (∀ s : State, s.dev = .noDevice → s.cfg = none →
    exec .devNew s = .next { s with refused := true, outcome := .refusedFor .noConfig }) ∧
  (∀ (s : State) (c : BuiltConfig), s.dev = .noDevice → s.cfg = some c →
    exec .devNew s = .next { s with
      dev := .uninitialized, devCfg := some c,
      outcome := .responded (.ok []), trace := s.trace ++ [.response (.ok [])] })

/-- 42_device.md R155: `DEV_INIT`, with its encoding and refusal: identity read, three writes of the device's packed bytes
in order, the settling delay, `Ready`. Every answer to every transaction is covered: the outcome of the first that
fails, or the identity mismatch, ends the request, with the device `Uninitialized`. -/
def Obligations.DevInitRunsItsSequence : Prop :=
  (∀ p : Params, decode p ⟨0x21000000, []⟩ = .ok .devInit) ∧
  (∀ s : State, s.dev = .noDevice →
    exec .devInit s = .next { s with refused := true, outcome := .refusedFor .noDevice }) ∧
  (∀ (s s0 s1 s2 s3 s4 : State) (c : BuiltConfig), s.dev ≠ .noDevice → s.devCfg = some c →
    s0 = { s with dev := .uninitialized } →
    s1 = s0.afterReads s.params.idReg [s.params.idExpected] →
    s2 = s1.afterWrite s.params.regTiming c.packed.timing →
    s3 = s2.afterWrite s.params.regMeasure c.packed.measure →
    s4 = s3.afterWrite s.params.regPowerCtl c.packed.powerCtl →
    (∀ e : BusErr, s0.readAnswer s.params.idReg 1 = some (.err e) →
      exec .devInit s = .next { s0 with
        outcome := .responded (.busError e),
        trace := s0.trace ++ [.read s.params.idReg 1 (.err e), .response (.busError e)] }) ∧
    (∀ b : Byte, b ≠ s.params.idExpected → s0.readAnswer s.params.idReg 1 = some (.ok #v[b]) →
      exec .devInit s = .next { s0 with
        outcome := .responded .identityMismatch,
        trace := s0.trace ++ [.read s.params.idReg 1 (.ok [b]), .response .identityMismatch] }) ∧
    (s0.readAnswer s.params.idReg 1 = some (.ok #v[s.params.idExpected]) →
      (∀ e : BusErr, s1.writeAnswer s.params.regTiming c.packed.timing = some (.err e) →
        exec .devInit s = .next { s1 with
          outcome := .responded (.busError e),
          trace := s1.trace ++ [.write s.params.regTiming c.packed.timing (.err e), .response (.busError e)] }) ∧
      (s1.writeAnswer s.params.regTiming c.packed.timing = some (.ok ()) →
        (∀ e : BusErr, s2.writeAnswer s.params.regMeasure c.packed.measure = some (.err e) →
          exec .devInit s = .next { s2 with
            outcome := .responded (.busError e),
            trace := s2.trace ++ [.write s.params.regMeasure c.packed.measure (.err e), .response (.busError e)] }) ∧
        (s2.writeAnswer s.params.regMeasure c.packed.measure = some (.ok ()) →
          (∀ e : BusErr, s3.writeAnswer s.params.regPowerCtl c.packed.powerCtl = some (.err e) →
            exec .devInit s = .next { s3 with
              outcome := .responded (.busError e),
              trace := s3.trace ++
                [.write s.params.regPowerCtl c.packed.powerCtl (.err e), .response (.busError e)] }) ∧
          (s3.writeAnswer s.params.regPowerCtl c.packed.powerCtl = some (.ok ()) → s4.portSilent = false →
            exec .devInit s = .next { s4 with
              dev := .ready, outcome := .responded (.ok []),
              trace := s4.trace ++ [.delay s.params.settleMs, .response (.ok [])] })))))

/-- 42_device.md R157: on an identity mismatch there is one read and no configuration write. -/
def Obligations.IdentityMismatchWritesNothing : Prop :=
  ∀ (s : State) (c : BuiltConfig) (b : Byte), s.dev ≠ .noDevice → s.devCfg = some c → b ≠ s.params.idExpected →
    ({ s with dev := .uninitialized } : State).readAnswer s.params.idReg 1 = some (.ok #v[b]) →
    ∃ t : State, exec .devInit s = .next t ∧ t.outcome = .responded .identityMismatch ∧ t.dev = .uninitialized ∧
      t.simRegs = s.simRegs ∧
      t.trace = s.trace ++ [.read s.params.idReg 1 (.ok [b]), .response .identityMismatch]

/-- 42_device.md section 2 (R158 and R159, without what the chip keeps of earlier writes): a `DEV_INIT` that is not
refused and does not answer `OK` leaves `Uninitialized`, whatever the state before, and after a failed transaction there
is no further transaction and no delay: the failed one and the response are its last two events. -/
def Obligations.FailedInitLeavesUninitialized : Prop :=
  ∀ s t : State, s.dev ≠ .noDevice → exec .devInit s = .next t →
    (t.outcome ≠ .responded (.ok []) → t.dev = .uninitialized) ∧
    (∀ e : BusErr, t.outcome = .responded (.busError e) →
      ∃ (es : List Event) (x : Event), t.trace = s.trace ++ es ++ [x, .response (.busError e)] ∧
        x.fault = some e ∧ ∀ y ∈ es, y.fault = none ∧ ∀ ms, y ≠ .delay ms)

/-- 42_device.md R155 and R156, read from the end: the device becomes `Ready` only by `DEV_INIT`, and then the identity
read delivered the expected byte, the device's three bytes were written in order with the power register last, and the
settling delay came after them (70_reset_and_hazards.md R243). -/
def Obligations.ReadyMeansTheWholeSequenceRan : Prop :=
  ∀ (i : Instr) (s t : State), exec i s = .next t → t.dev = .ready →
    (s.dev = .ready ∧ i ≠ .devInit) ∨
    (i = .devInit ∧ ∃ c : BuiltConfig, s.devCfg = some c ∧ t.devCfg = some c ∧
      t.trace = s.trace ++
        [.read s.params.idReg 1 (.ok [s.params.idExpected]),
         .write s.params.regTiming c.packed.timing (.ok ()),
         .write s.params.regMeasure c.packed.measure (.ok ()),
         .write s.params.regPowerCtl c.packed.powerCtl (.ok ()),
         .delay s.params.settleMs, .response (.ok [])])

/-- 42_device.md R162 and R165: `DEV_READXYZ`, with its encoding and refusal: `NOT_READY` without a transaction; in
`Ready` one burst of six bytes from `DATA_START`, framed or sequential, converted and answered as three `i16`; a failed
read answers its fault and leaves the device `Ready`. -/
def Obligations.DevReadxyzReadsOneSample : Prop :=
  (∀ p : Params, decode p ⟨0x22000000, []⟩ = .ok .devReadxyz) ∧
  (∀ s : State, s.dev = .noDevice →
    exec .devReadxyz s = .next { s with refused := true, outcome := .refusedFor .noDevice }) ∧
  (∀ s : State, s.dev = .uninitialized →
    exec .devReadxyz s = .next { s with
      outcome := .responded .notReady, trace := s.trace ++ [.response .notReady] }) ∧
  (∀ (s : State) (b : Vector Byte 6) (d : List Byte), s.dev = .ready → s.params.framed = true →
    s.readAnswer s.params.dataStart 6 = some (.ok b) →
    d = enc16 (convert s.params b).x ++ enc16 (convert s.params b).y ++ enc16 (convert s.params b).z →
    exec .devReadxyz s = .next { s with
      outcome := .responded (.ok d),
      trace := s.trace ++ [.read s.params.dataStart 6 (.ok b.toList), .response (.ok d)] }) ∧
  (∀ (s : State) (e : BusErr), s.dev = .ready → s.params.framed = true →
    s.readAnswer s.params.dataStart 6 = some (.err e) →
    exec .devReadxyz s = .next { s with
      outcome := .responded (.busError e),
      trace := s.trace ++ [.read s.params.dataStart 6 (.err e), .response (.busError e)] }) ∧
  (∀ (s : State) (b : Vector Byte 6) (d : List Byte), s.dev = .ready → s.params.framed = false →
    (∀ (k : Nat) (h : k < 6),
      (s.afterReads s.params.dataStart (b.toList.take k)).readAnswer (s.params.dataStart + k) 1 = some (.ok #v[b[k]])) →
    d = enc16 (convert s.params b).x ++ enc16 (convert s.params b).y ++ enc16 (convert s.params b).z →
    exec .devReadxyz s = .next { s.afterReads s.params.dataStart b.toList with
      outcome := .responded (.ok d),
      trace := (s.afterReads s.params.dataStart b.toList).trace ++ [.response (.ok d)] }) ∧
  (∀ (s : State) (bs : List Byte) (e : BusErr), s.dev = .ready → s.params.framed = false → bs.length < 6 →
    (∀ (k : Nat) (h : k < bs.length),
      (s.afterReads s.params.dataStart (bs.take k)).readAnswer (s.params.dataStart + k) 1 = some (.ok #v[bs[k]])) →
    (s.afterReads s.params.dataStart bs).readAnswer (s.params.dataStart + bs.length) 1 = some (.err e) →
    exec .devReadxyz s = .next { s.afterReads s.params.dataStart bs with
      outcome := .responded (.busError e),
      trace := (s.afterReads s.params.dataStart bs).trace ++
        [.read (s.params.dataStart + bs.length) 1 (.err e), .response (.busError e)] })

/-- 42_device.md R163: before a successful `DEV_INIT`, `DEV_READXYZ` answers `NOT_READY` and issues no transaction,
whatever the bus would answer (60_exceptions.md R204). -/
def Obligations.ReadBeforeInitIsNotReady : Prop :=
  ∀ s : State, s.dev = .uninitialized →
    ∃ t : State, exec .devReadxyz s = .next t ∧ t.outcome = .responded .notReady ∧ t.dev = .uninitialized ∧
      t.trace.transactions = s.trace.transactions

/-- 42_device.md R170: `DEV_DROP`, with its encoding and refusal: the device and its config go, the staging and the built
config stay, and no transaction is issued. -/
def Obligations.DevDropReleasesTheDevice : Prop :=
  (∀ p : Params, decode p ⟨0x23000000, []⟩ = .ok .devDrop) ∧
  (∀ s : State, s.dev = .noDevice →
    exec .devDrop s = .next { s with refused := true, outcome := .refusedFor .noDevice }) ∧
  (∀ s : State, s.dev ≠ .noDevice →
    exec .devDrop s = .next { s with
      dev := .noDevice, devCfg := none,
      outcome := .responded (.ok []), trace := s.trace ++ [.response (.ok [])] })

/-- 42_device.md R171 (a table the spec derives), the last line of it too: the only changes of the device's state that any
request makes. -/
def Obligations.DeviceTransitionsFollowTheTable : Prop :=
  ∀ (i : Instr) (s t : State), exec i s = .next t → t.dev ≠ s.dev →
    (i = .devNew ∧ s.dev = .noDevice ∧ t.dev = .uninitialized) ∨
    (i = .devInit ∧ s.dev = .uninitialized ∧ t.dev = .ready ∧ t.outcome = .responded (.ok [])) ∨
    (i = .devInit ∧ s.dev = .ready ∧ t.dev = .uninitialized ∧ t.outcome ≠ .responded (.ok [])) ∨
    (i = .devDrop ∧ s.dev ≠ .noDevice ∧ t.dev = .noDevice)

/-- 10_state.md R25 and R26, over every request: the device's config is written by `DEV_NEW`, as a copy of the built
config, and by `DEV_DROP` alone; the built config is replaced as a whole by `CFG_BUILD` alone. -/
def Obligations.ConfigsAreCopiesAndImmutable : Prop :=
  ∀ (i : Instr) (s t : State), exec i s = .next t →
    (t.devCfg ≠ s.devCfg → (i = .devNew ∧ t.devCfg = s.cfg) ∨ (i = .devDrop ∧ t.devCfg = none)) ∧
    (t.cfg ≠ s.cfg → i = .cfgBuild ∧ (t.cfg = none ∨ t.cfg = some ⟨s.stg, pack s.stg⟩))

/-- 10_state.md R25, as isolation: what `DEV_INIT`, `DEV_READXYZ` and `DEV_DROP` do does not depend on the builder's
staging or its built config. -/
def Obligations.DeviceRequestsIgnoreTheBuilder : Prop :=
  ∀ (i : Instr) (s t : State) (x : Settings) (c : Option BuiltConfig),
    i = .devInit ∨ i = .devReadxyz ∨ i = .devDrop → exec i s = .next t →
    exec i { s with stg := x, cfg := c } = .next { t with stg := x, cfg := c }

/-! ### Conversion and scaling -/

/-- 43_conversion.md R182 and R183: pairing by `ORDER`, field extraction by `ALIGN`, sign extension of 12 bits, for every
axis and every value of the two parameters. -/
def Obligations.ConvertPairsExtractsAndExtends : Prop :=
  (∀ (p : Params) (b : Vector Byte 6),
    (convert p b).x = axisValue p b[0] b[1] ∧ (convert p b).y = axisValue p b[2] b[3] ∧
    (convert p b).z = axisValue p b[4] b[5]) ∧
  (∀ (p : Params) (f g H L : Byte) (n : Nat),
    (p.order = .highFirst ∧ H = f ∧ L = g) ∨ (p.order = .lowFirst ∧ L = f ∧ H = g) →
    (p.align = .msb ∧ n = H.toNat * 16 + L.toNat / 16) ∨ (p.align = .lsb ∧ n = H.toNat % 16 * 256 + L.toNat) →
    (axisValue p f g).toInt = if n < 2048 then (n : Int) else (n : Int) - 4096)

/-- 43_conversion.md R181: every element of a sample lies in -2048 .. 2047. -/
def Obligations.SamplesHaveTwelveBits : Prop :=
  ∀ (p : Params) (b : Vector Byte 6),
    (-2048 ≤ (convert p b).x.toInt ∧ (convert p b).x.toInt ≤ 2047) ∧
    (-2048 ≤ (convert p b).y.toInt ∧ (convert p b).y.toInt ≤ 2047) ∧
    (-2048 ≤ (convert p b).z.toInt ∧ (convert p b).z.toInt ≤ 2047)

/-- 43_conversion.md R186 and R180: `CONV_RAW`, with its encoding: the converted triple, no transaction, no state; its
response is the same in any two states with the same `ORDER` and `ALIGN`. -/
def Obligations.ConvRawIsPure : Prop :=
  (∀ (p : Params) (p0 p1 p2 p3 p4 p5 : Byte),
    decode p ⟨0x30000000, [p0, p1, p2, p3, p4, p5]⟩ = .ok (.convRaw p0 p1 p2 p3 p4 p5)) ∧
  (∀ (s : State) (m : Sample) (d : List Byte) (p0 p1 p2 p3 p4 p5 : Byte),
    m = convert s.params #v[p0, p1, p2, p3, p4, p5] → d = enc16 m.x ++ enc16 m.y ++ enc16 m.z →
    exec (.convRaw p0 p1 p2 p3 p4 p5) s = .next { s with
      outcome := .responded (.ok d), trace := s.trace ++ [.response (.ok d)] }) ∧
  (∀ (s u : State) (p0 p1 p2 p3 p4 p5 : Byte), s.params.order = u.params.order → s.params.align = u.params.align →
    ∃ s' u' : State, exec (.convRaw p0 p1 p2 p3 p4 p5) s = .next s' ∧ exec (.convRaw p0 p1 p2 p3 p4 p5) u = .next u' ∧
      s'.outcome = u'.outcome)

/-- 43_conversion.md R187: scaling is the exact product with `SENS`; that `SENS` is 100 is a decided value of the
parameters, general knowledge by the spec's own mark (log 11). -/
def Obligations.ScalingIsExact : Prop :=
  (∀ (p : Params) (v : I16), p.sens < 2 ^ 16 → (scaleValue p v).toInt = v.toInt * p.sens) ∧
  (∀ (q : Variant) (v : I16), (scaleValue (Params.decided q) v).toInt = v.toInt * 100)

/-- 43_conversion.md R189: `SCALE`, with its payload high byte first: three products of four bytes each, no transaction,
no state; the products are exact for every 16-bit value, inside the 12-bit range or not. -/
def Obligations.ScaleAnswersThreeProducts : Prop :=
  (∀ (p : Params) (x y z : I16),
    decode p ⟨0x31000000, enc16 x ++ enc16 y ++ enc16 z⟩ = .ok (.scale x y z)) ∧
  (∀ (s : State) (x y z : I16) (d : List Byte),
    d = enc32 (scaleValue s.params x) ++ enc32 (scaleValue s.params y) ++ enc32 (scaleValue s.params z) →
    exec (.scale x y z) s = .next { s with
      outcome := .responded (.ok d), trace := s.trace ++ [.response (.ok d)] }) ∧
  (∀ (s : State) (x y z : I16) (a b c : I32) (d : List Byte),
    a.toInt = x.toInt * s.params.sens → b.toInt = y.toInt * s.params.sens → c.toInt = z.toInt * s.params.sens →
    d = enc32 a ++ enc32 b ++ enc32 c →
    exec (.scale x y z) s = .next { s with
      outcome := .responded (.ok d), trace := s.trace ++ [.response (.ok d)] }) ∧
  (∀ p : Params, p.sens = 100 → (scaleValue p (-32768)).toInt = -3276800) ∧
  (∀ p : Params, scaleValue p 0 = 0)

/-- 43_conversion.md R185: the result encodings, most significant byte first. -/
def Obligations.ResultsAreEncodedHighByteFirst : Prop :=
  (∀ v : I16, enc16 v = [BitVec.ofNat 8 (v.toNat / 256), BitVec.ofNat 8 v.toNat]) ∧
  (∀ v : I32, enc32 v = [BitVec.ofNat 8 (v.toNat / 16777216), BitVec.ofNat 8 (v.toNat / 65536),
    BitVec.ofNat 8 (v.toNat / 256), BitVec.ofNat 8 v.toNat]) ∧
  enc16 (-1) = [0xFF, 0xFF] ∧ enc16 (-2048) = [0xF8, 0x00] ∧ enc32 (-204800) = [0xFF, 0xFC, 0xE0, 0x00]

/-- 43_conversion.md R190 (derived by the spec): each lane of a conversion depends on its own pair of bytes alone. -/
def Obligations.LanesAreIndependent : Prop :=
  ∀ (p : Params) (a b : Vector Byte 6),
    (a[0] = b[0] → a[1] = b[1] → (convert p a).x = (convert p b).x) ∧
    (a[2] = b[2] → a[3] = b[3] → (convert p a).y = (convert p b).y) ∧
    (a[4] = b[4] → a[5] = b[5] → (convert p a).z = (convert p b).z)

/-! ### Errors, refusals and whole-machine rules -/

/-- 60_exceptions.md R200: which request answers which error status, with its cause: no request raises a status its row
does not list. -/
def Obligations.ErrorsHaveTheirListedCauses : Prop :=
  ∀ (i : Instr) (s t : State) (x : Response), exec i s = .next t → t.outcome = .responded x →
    (∃ d, x = .ok d) ∨
    (∃ e, x = .busError e ∧ i.usesPorts = true ∧
      ∃ (es : List Event) (y : Event), t.trace = s.trace ++ es ++ [y, .response x] ∧ y.fault = some e) ∨
    (x = .identityMismatch ∧ i = .devInit ∧
      ∃ b, b ≠ s.params.idExpected ∧ t.trace = s.trace ++ [.read s.params.idReg 1 (.ok [b]), .response x]) ∨
    (x = .invalidConfig ∧ i = .cfgBuild ∧ legal s.stg = false ∧ t.trace = s.trace ++ [.response x]) ∨
    (x = .notReady ∧ i = .devReadxyz ∧ s.dev = .uninitialized ∧ t.trace = s.trace ++ [.response x])

/-- 60_exceptions.md R208 (derived by the spec): the only state of `st` that an error writes is `cfg <- none` for
`INVALID_CONFIG` and `dev <- Uninitialized` for a failed `DEV_INIT`. -/
def Obligations.ErrorsWriteOnlyWhatTheyList : Prop :=
  ∀ (i : Instr) (s t : State) (x : Response), exec i s = .next t → t.outcome = .responded x → (∀ d, x ≠ .ok d) →
    t.stg = s.stg ∧ t.devCfg = s.devCfg ∧ t.refused = s.refused ∧
    t.cfg = (if x = .invalidConfig then none else s.cfg) ∧
    t.dev = (if i = .devInit then .uninitialized else s.dev)

/-- 60_exceptions.md R209: a request is refused in exactly the listed cases, in the order of R207; a refused request sets
the mark and presents no response, and changes nothing else; a request that is not refused leaves the mark. (The reason
in the outcome is the model's record, log 3; that the run goes on is log 2.) -/
def Obligations.RefusalsAreExactlyTheListedOnes : Prop :=
  ∀ (i : Instr) (s : State),
    (∀ why, refusalOf i s = some why →
      exec i s = .next { s with refused := true, outcome := .refusedFor why }) ∧
    (∀ t, refusalOf i s = none → exec i s = .next t →
      t.refused = s.refused ∧ ∀ why, t.outcome ≠ .refusedFor why)

/-- 70_reset_and_hazards.md R231: the mark is false at reset, and no step clears it. -/
def Obligations.TheMarkIsNeverCleared : Prop :=
  State.reset.refused = false ∧ ∀ s t : State, step s = .next t → s.refused = true → t.refused = true

/-- 10_state.md R27, the column "written by": every request, field by field, and the fields that no request writes: the
parameters, the request stream and what stands behind the ports. A register of the simulator changes only by a request
that writes the bus. -/
def Obligations.FieldsAreWrittenByTheirRequestsOnly : Prop :=
  ∀ (i : Instr) (s t : State), exec i s = .next t →
    (t.stg.odr ≠ s.stg.odr → i = .cfgNew ∨ ∃ o, i = .cfgOdr o) ∧
    (t.stg.bw ≠ s.stg.bw → i = .cfgNew ∨ ∃ b, i = .cfgBw b) ∧
    (t.stg.mode ≠ s.stg.mode → i = .cfgNew ∨ ∃ m, i = .cfgPmode m) ∧
    (t.stg.hpfEn ≠ s.stg.hpfEn → i = .cfgNew ∨ ∃ h, i = .cfgHpf h) ∧
    (t.stg.lpfEn ≠ s.stg.lpfEn → i = .cfgNew ∨ ∃ h, i = .cfgLpf h) ∧
    (t.cfg ≠ s.cfg → i = .cfgBuild) ∧
    (t.dev ≠ s.dev → i = .devNew ∨ i = .devInit ∨ i = .devDrop) ∧
    (t.devCfg ≠ s.devCfg → i = .devNew ∨ i = .devDrop) ∧
    (t.refused ≠ s.refused → ∃ why, t.outcome = .refusedFor why) ∧
    t.params = s.params ∧ t.requests = s.requests ∧ t.oracle = s.oracle ∧ t.simFaults = s.simFaults ∧
    t.silentAt = s.silentAt ∧
    (∀ a, t.simRegs.read a ≠ s.simRegs.read a →
      (∃ addr data, i = .wrreg addr data ∧ a = addr.toNat) ∨
      (i = .devInit ∧ (a = s.params.regTiming ∨ a = s.params.regMeasure ∨ a = s.params.regPowerCtl)))

/-- 42_device.md R172 (derived by the spec) and 20_memory.md R58: a well-formed request has at most a fixed number of port
events, and one that does not use the ports has none. -/
def Obligations.RequestsHaveBoundedPortEvents : Prop :=
  ∀ (i : Instr) (s t : State), i.wf s.params = true → exec i s = .next t →
    ∃ es : List Event, t.trace = s.trace ++ es ∧ Trace.portEvents es ≤ i.maxPortEvents ∧
      (i.usesPorts = false → Trace.portEvents es = 0)

/-- 30_encoding.md R88: the status codes and what each status carries: the data of an `OK`, the very fault of a
`BUS_ERROR`, nothing for the others. (Where a `BUS_ERROR` carries its fault is BusErrorsHaveNoDataBytes.) -/
def Obligations.StatusCodesAreTheListedOnes : Prop :=
  (∀ d, statusCode (.ok d) = 0x00 ∧ statusData (.ok d) = d ∧ statusFault (.ok d) = none) ∧
  (∀ e, statusCode (.busError e) = 0x01 ∧ statusFault (.busError e) = some e) ∧
  (statusCode .identityMismatch = 0x02 ∧ statusData .identityMismatch = [] ∧ statusFault .identityMismatch = none) ∧
  (statusCode .invalidConfig = 0x03 ∧ statusData .invalidConfig = [] ∧ statusFault .invalidConfig = none) ∧
  (statusCode .notReady = 0x04 ∧ statusData .notReady = [] ∧ statusFault .notReady = none) ∧
  (∀ x : Response, (statusCode x).toNat ≤ 4)

/-- 30_encoding.md section 4: the fault of a `BUS_ERROR` stands beside the status code as the token the port gave, and no
data bytes follow. The spec leaves the type of the fault to the model, and this form is the model's choice (log 4). -/
def Obligations.BusErrorsHaveNoDataBytes : Prop :=
  ∀ e : BusErr, statusData (.busError e) = [] ∧ statusFault (.busError e) = some e

/-- 41_config.md R121, R122 and R123: the code of every rate, bandwidth and mode and the frequency it stands for, and every
word of their setters, all written out. The codes are general knowledge by the spec's own mark (log 16). -/
def Obligations.SettingCodesAreTheListedOnes : Prop :=
  (∀ p : Params,
    decode p ⟨0x11000000, []⟩ = .ok (.cfgOdr .hz400) ∧ decode p ⟨0x11010000, []⟩ = .ok (.cfgOdr .hz800) ∧
    decode p ⟨0x11020000, []⟩ = .ok (.cfgOdr .hz1600) ∧ decode p ⟨0x11030000, []⟩ = .ok (.cfgOdr .hz3200) ∧
    decode p ⟨0x11040000, []⟩ = .ok (.cfgOdr .hz6400)) ∧
  (∀ p : Params,
    decode p ⟨0x12000000, []⟩ = .ok (.cfgBw .hz200) ∧ decode p ⟨0x12010000, []⟩ = .ok (.cfgBw .hz400) ∧
    decode p ⟨0x12020000, []⟩ = .ok (.cfgBw .hz800) ∧ decode p ⟨0x12030000, []⟩ = .ok (.cfgBw .hz1600) ∧
    decode p ⟨0x12040000, []⟩ = .ok (.cfgBw .hz3200)) ∧
  (∀ p : Params,
    decode p ⟨0x13000000, []⟩ = .ok (.cfgPmode .standby) ∧ decode p ⟨0x13010000, []⟩ = .ok (.cfgPmode .wakeup) ∧
    decode p ⟨0x13020000, []⟩ = .ok (.cfgPmode .instantOn) ∧ decode p ⟨0x13030000, []⟩ = .ok (.cfgPmode .fullBw)) ∧
  (Odr.hz400.code = 0 ∧ Odr.hz800.code = 1 ∧ Odr.hz1600.code = 2 ∧ Odr.hz3200.code = 3 ∧ Odr.hz6400.code = 4) ∧
  (Bw.hz200.code = 0 ∧ Bw.hz400.code = 1 ∧ Bw.hz800.code = 2 ∧ Bw.hz1600.code = 3 ∧ Bw.hz3200.code = 4) ∧
  (PMode.standby.code = 0 ∧ PMode.wakeup.code = 1 ∧ PMode.instantOn.code = 2 ∧ PMode.fullBw.code = 3) ∧
  (Odr.hz400.hz = 400 ∧ Odr.hz800.hz = 800 ∧ Odr.hz1600.hz = 1600 ∧ Odr.hz3200.hz = 3200 ∧ Odr.hz6400.hz = 6400) ∧
  (Bw.hz200.hz = 200 ∧ Bw.hz400.hz = 400 ∧ Bw.hz800.hz = 800 ∧ Bw.hz1600.hz = 1600 ∧ Bw.hz3200.hz = 3200)
end

