-- ==== Sys2Proof/Laws/Decode.lean ====
section
/-! SUPPORT. Fields of an assembled word, codes and payload bytes read back. -/

namespace Sys2Proof

/-- An appended number: the high part times the weight of the low part, plus the low part. -/
theorem toNat_append_eq {m n : Nat} (x : BitVec m) (y : BitVec n) :
    (x ++ y).toNat = x.toNat * 2 ^ n + y.toNat := by
  rw [BitVec.toNat_append, ← Nat.shiftLeft_add_eq_or_of_lt y.isLt, Nat.shiftLeft_eq]

theorem mkWord_toNat (o a b c : Byte) :
    (mkWord o a b c).toNat = o.toNat * 16777216 + a.toNat * 65536 + b.toNat * 256 + c.toNat := by
  have h : (mkWord o a b c).toNat = ((o.toNat * 2 ^ 8 + a.toNat) * 2 ^ 8 + b.toNat) * 2 ^ 8 + c.toNat := by
    rw [← toNat_append_eq, ← toNat_append_eq, ← toNat_append_eq]; rfl
  rw [h]
  ring

theorem joinHighFirst_toNat (h l : Byte) : (joinHighFirst h l).toNat = h.toNat * 256 + l.toNat := by
  have e : (joinHighFirst h l).toNat = h.toNat * 2 ^ 8 + l.toNat := by rw [← toNat_append_eq]; rfl
  omega

theorem mkWord_eq_fields (w : Word) :
    mkWord (w.extractLsb' 24 8) (w.extractLsb' 16 8) (w.extractLsb' 8 8) (w.extractLsb' 0 8) = w := by
  apply BitVec.eq_of_toNat_eq
  have := w.isLt
  simp only [mkWord_toNat, BitVec.extractLsb'_toNat, Nat.shiftRight_eq_div_pow]
  omega

/-- A request is the word of its four fields, and its payload. -/
theorem Request.eq_fields (r : Request) : (⟨mkWord r.opc r.a r.b r.c, r.payload⟩ : Request) = r := by
  obtain ⟨w, l⟩ := r
  simp only [Request.opc, Request.a, Request.b, Request.c, mkWord_eq_fields]

@[simp] theorem Request.opc_mkWord (o a b c : Byte) (l : List Byte) : (Request.mk (mkWord o a b c) l).opc = o := by
  apply BitVec.eq_of_toNat_eq
  have := o.isLt; have := a.isLt; have := b.isLt; have := c.isLt
  simp only [Request.opc, mkWord_toNat, BitVec.extractLsb'_toNat, Nat.shiftRight_eq_div_pow]
  omega

@[simp] theorem Request.a_mkWord (o a b c : Byte) (l : List Byte) : (Request.mk (mkWord o a b c) l).a = a := by
  apply BitVec.eq_of_toNat_eq
  have := o.isLt; have := a.isLt; have := b.isLt; have := c.isLt
  simp only [Request.a, mkWord_toNat, BitVec.extractLsb'_toNat, Nat.shiftRight_eq_div_pow]
  omega

@[simp] theorem Request.b_mkWord (o a b c : Byte) (l : List Byte) : (Request.mk (mkWord o a b c) l).b = b := by
  apply BitVec.eq_of_toNat_eq
  have := o.isLt; have := a.isLt; have := b.isLt; have := c.isLt
  simp only [Request.b, mkWord_toNat, BitVec.extractLsb'_toNat, Nat.shiftRight_eq_div_pow]
  omega

@[simp] theorem Request.c_mkWord (o a b c : Byte) (l : List Byte) : (Request.mk (mkWord o a b c) l).c = c := by
  apply BitVec.eq_of_toNat_eq
  have := o.isLt; have := a.isLt; have := b.isLt; have := c.isLt
  simp only [Request.c, mkWord_toNat, BitVec.extractLsb'_toNat, Nat.shiftRight_eq_div_pow]
  omega

@[simp] theorem joinHighFirst_bytes (v : I16) : joinHighFirst (hiByte v) (loByte v) = v := by
  apply BitVec.eq_of_toNat_eq
  have := v.isLt
  simp only [joinHighFirst_toNat, hiByte, loByte, BitVec.extractLsb'_toNat, Nat.shiftRight_eq_div_pow]
  omega

@[simp] theorem hiByte_joinHighFirst (h l : Byte) : hiByte (joinHighFirst h l) = h := by
  apply BitVec.eq_of_toNat_eq
  have := h.isLt; have := l.isLt
  simp only [joinHighFirst_toNat, hiByte, BitVec.extractLsb'_toNat, Nat.shiftRight_eq_div_pow]
  omega

@[simp] theorem loByte_joinHighFirst (h l : Byte) : loByte (joinHighFirst h l) = l := by
  apply BitVec.eq_of_toNat_eq
  have := h.isLt; have := l.isLt
  simp only [joinHighFirst_toNat, loByte, BitVec.extractLsb'_toNat, Nat.shiftRight_eq_div_pow]
  omega

@[simp] theorem Odr.ofCode_code (o : Odr) : Odr.ofCode o.code = some o := by cases o <;> rfl

@[simp] theorem Bw.ofCode_code (b : Bw) : Bw.ofCode b.code = some b := by cases b <;> rfl

@[simp] theorem PMode.ofCode_code (m : PMode) : PMode.ofCode m.code = some m := by cases m <;> rfl

@[simp] theorem enableOfCode_code (b : Bool) : enableOfCode (enableCode b) = some b := by cases b <;> rfl

theorem Odr.code_of_ofCode {c : Byte} {o : Odr} (h : Odr.ofCode c = some o) : o.code = c := by
  revert c; cases o <;> decide

theorem Bw.code_of_ofCode {c : Byte} {b : Bw} (h : Bw.ofCode c = some b) : b.code = c := by
  revert c; cases b <;> decide

theorem PMode.code_of_ofCode {c : Byte} {m : PMode} (h : PMode.ofCode c = some m) : m.code = c := by
  revert c; cases m <;> decide

theorem enableCode_of_ofCode {c : Byte} {b : Bool} (h : enableOfCode c = some b) : enableCode b = c := by
  revert c; cases b <;> decide

/-! ### What each format's decoder accepts -/

theorem noPayload_ok {r : Request} {i j : Instr} (h : noPayload r i = .ok j) : r.payload = [] ∧ i = j := by
  unfold noPayload at h
  split at h <;> simp_all

theorem decodeN_ok {r : Request} {i j : Instr} (h : decodeN r i = .ok j) :
    r.a = 0 ∧ r.b = 0 ∧ r.c = 0 ∧ r.payload = [] ∧ i = j := by
  unfold decodeN at h
  split at h
  · simp at h
  · next hf =>
    simp only [not_or, ne_eq, not_not] at hf
    have := noPayload_ok h
    simp_all

theorem decodeS_ok {α : Type} {r : Request} {f : Byte → Option α} {i : α → Instr} {j : Instr}
    (h : decodeS r f i = .ok j) : r.b = 0 ∧ r.c = 0 ∧ r.payload = [] ∧ ∃ v, f r.a = some v ∧ i v = j := by
  unfold decodeS at h
  split at h
  · simp at h
  · next hf =>
    simp only [not_or, ne_eq, not_not] at hf
    split at h
    · simp at h
    · next v hv =>
      have := noPayload_ok h
      exact ⟨hf.1, hf.2, this.1, v, hv, this.2⟩

theorem decodeR_ok {p : Params} {r : Request} {j : Instr} (h : decodeR p r = .ok j) :
    r.b = 0 ∧ r.c = 0 ∧ r.payload = [] ∧ addrFits p r.a = true ∧ j = .rdreg r.a := by
  unfold decodeR at h
  split at h
  · simp at h
  · next hf =>
    simp only [not_or, ne_eq, not_not] at hf
    split at h
    · simp at h
    · have := noPayload_ok h
      simp_all

theorem decodeW_ok {p : Params} {r : Request} {j : Instr} (h : decodeW p r = .ok j) :
    r.c = 0 ∧ r.payload = [] ∧ addrFits p r.a = true ∧ j = .wrreg r.a r.b := by
  unfold decodeW at h
  split at h
  · simp at h
  · next hf =>
    simp only [ne_eq, not_not] at hf
    split at h
    · simp at h
    · have := noPayload_ok h
      simp_all

theorem decodeU_ok {p : Params} {r : Request} {j : Instr} (h : decodeU p r = .ok j) :
    r.c = 0 ∧ r.payload = [] ∧ addrFits p r.a = true ∧ burstNonempty r.b = true ∧ burstFits p r.a r.b = true ∧
      j = .rdburst r.a r.b := by
  unfold decodeU at h
  split at h
  · simp at h
  · next hf =>
    simp only [ne_eq, not_not] at hf
    split at h
    · simp at h
    · split at h
      · simp at h
      · have := noPayload_ok h
        simp_all

theorem decodeP_ok {r : Request} {i : Byte → Byte → Byte → Byte → Byte → Byte → Instr} {j : Instr}
    (h : decodeP r i = .ok j) : r.a = 0 ∧ r.b = 0 ∧ r.c = 0 ∧
      ∃ p0 p1 p2 p3 p4 p5, r.payload = [p0, p1, p2, p3, p4, p5] ∧ i p0 p1 p2 p3 p4 p5 = j := by
  unfold decodeP at h
  split at h
  · simp at h
  · next hf =>
    simp only [not_or, ne_eq, not_not] at hf
    split at h
    · next hp =>
      simp at h
      exact ⟨hf.1, hf.2.1, hf.2.2, _, _, _, _, _, _, hp, h⟩
    · simp at h

theorem Odr.ofCode_none (a : Byte) : Odr.ofCode a = none ↔ 4 < a.toNat := by revert a; decide

theorem Bw.ofCode_none (a : Byte) : Bw.ofCode a = none ↔ 4 < a.toNat := by revert a; decide

theorem PMode.ofCode_none (a : Byte) : PMode.ofCode a = none ↔ 3 < a.toNat := by revert a; decide

theorem enableOfCode_none (a : Byte) : enableOfCode a = none ↔ 1 < a.toNat := by revert a; decide

end Sys2Proof
end

