-- ==== Sys2Proof/Laws/Memory.lean ====
section
/-! SUPPORT. The simulator's register file: what a write leaves, the canonical form, and that equal contents are equal
lists. -/

namespace Sys2Proof.Machine

@[simp] theorem Memory.read_nil (a : Nat) : Memory.read [] a = Memory.unlisted := rfl

theorem Memory.read_cons (k : Nat) (v : Byte) (m : Memory) (a : Nat) :
    Memory.read ((k, v) :: m) a = if k = a then v else Memory.read m a := rfl

/-- An address below every listed one is unlisted. -/
theorem Memory.read_below (m : Memory) (a : Nat) (h : m.all (fun c => decide (a < c.1)) = true) :
    m.read a = Memory.unlisted := by
  induction m with
  | nil => rfl
  | cons c m ih =>
    obtain ⟨k, v⟩ := c
    simp only [List.all_cons, Bool.and_eq_true, decide_eq_true_eq] at h
    rw [Memory.read_cons, if_neg (by omega), ih h.2]

theorem Memory.read_put_other (a b : Nat) (v : Byte) (m : Memory) (h : a ≠ b) : (Memory.put a v m).read b = m.read b := by
  unfold Memory.put
  split
  · rfl
  · rw [Memory.read_cons, if_neg h]

theorem Memory.read_put_same (a : Nat) (v : Byte) (m : Memory) (h : m.read a = Memory.unlisted) :
    (Memory.put a v m).read a = v := by
  unfold Memory.put
  split
  · next hv => rw [h, hv]
  · rw [Memory.read_cons, if_pos rfl]

/-- A write leaves every other register alone, in any list. -/
theorem Memory.read_write_other (m : Memory) (a b : Nat) (v : Byte) (h : a ≠ b) : (m.write a v).read b = m.read b := by
  induction m with
  | nil => exact Memory.read_put_other a b v [] h
  | cons c m ih =>
    obtain ⟨k, w⟩ := c
    simp only [Memory.write]
    split
    · exact Memory.read_put_other a b v _ h
    · split
      · next hk => rw [Memory.read_put_other a b v m h, Memory.read_cons, if_neg (by omega)]
      · rw [Memory.read_cons, Memory.read_cons, ih]

theorem Memory.wf_cons (k : Nat) (v : Byte) (m : Memory) :
    Memory.wf ((k, v) :: m) = true ↔
      v ≠ Memory.unlisted ∧ m.all (fun c => decide (k < c.1)) = true ∧ m.wf = true := by
  simp [Memory.wf, and_assoc]

/-- A write puts the byte where it is read back, in canonical form. -/
theorem Memory.read_write_same (m : Memory) (a : Nat) (v : Byte) (h : m.wf = true) : (m.write a v).read a = v := by
  induction m with
  | nil => exact Memory.read_put_same a v [] rfl
  | cons c m ih =>
    obtain ⟨k, w⟩ := c
    rw [Memory.wf_cons] at h
    simp only [Memory.write]
    split
    · next hk =>
      apply Memory.read_put_same
      apply Memory.read_below
      simp only [List.all_cons, Bool.and_eq_true, decide_eq_true_eq]
      refine ⟨hk, List.all_eq_true.mpr fun c hc => ?_⟩
      have := List.all_eq_true.mp h.2.1 c hc
      simp only [decide_eq_true_eq] at this ⊢
      omega
    · split
      · next hk =>
        subst hk
        exact Memory.read_put_same a v m (Memory.read_below m a h.2.1)
      · rw [Memory.read_cons, if_neg (by omega), ih h.2.2]

theorem Memory.all_write (m : Memory) (a k : Nat) (v : Byte) (hk : k < a)
    (h : m.all (fun c => decide (k < c.1)) = true) : (m.write a v).all (fun c => decide (k < c.1)) = true := by
  induction m with
  | nil =>
    simp only [Memory.write, Memory.put]
    split <;> simp [hk]
  | cons c m ih =>
    obtain ⟨j, w⟩ := c
    simp only [List.all_cons, Bool.and_eq_true, decide_eq_true_eq] at h
    simp only [Memory.write, Memory.put]
    split
    · split <;> simp [hk, h]
    · split
      · split <;> simp [hk, h]
      · simp [h, ih h.2]

/-- A write keeps the canonical form. -/
theorem Memory.wf_write (m : Memory) (a : Nat) (v : Byte) (h : m.wf = true) : (m.write a v).wf = true := by
  induction m with
  | nil =>
    simp only [Memory.write, Memory.put]
    split
    · rfl
    · next hv => exact (Memory.wf_cons a v []).mpr ⟨hv, rfl, rfl⟩
  | cons c m ih =>
    obtain ⟨k, w⟩ := c
    have hm := h
    rw [Memory.wf_cons] at h
    simp only [Memory.write, Memory.put]
    split
    · next hk =>
      split
      · exact hm
      · next hv =>
        refine (Memory.wf_cons _ _ _).mpr ⟨hv, ?_, hm⟩
        simp only [List.all_cons, Bool.and_eq_true, decide_eq_true_eq]
        refine ⟨hk, List.all_eq_true.mpr fun c hc => ?_⟩
        have := List.all_eq_true.mp h.2.1 c hc
        simp only [decide_eq_true_eq] at this ⊢
        omega
    · split
      · next hk =>
        subst hk
        split
        · exact h.2.2
        · next hv => exact (Memory.wf_cons _ _ _).mpr ⟨hv, h.2.1, h.2.2⟩
      · exact (Memory.wf_cons _ _ _).mpr ⟨h.1, Memory.all_write m a k v (by omega) h.2.1, ih h.2.2⟩

@[simp] theorem Memory.readBytes_toList (m : Memory) (a n : Nat) :
    (m.readBytes a n).toList = (List.range n).map fun k => m.read (a + k) := by
  induction n with
  | zero => rfl
  | succ n ih => simp [Memory.readBytes, Vector.toList_push, ih, List.range_succ]

/-- Canonical register files with the same contents are the same list. -/
theorem Memory.ext_of_wf (m m' : Memory) (h : m.wf = true) (h' : m'.wf = true) (hr : ∀ a, m.read a = m'.read a) :
    m = m' := by
  induction m generalizing m' with
  | nil =>
    cases m' with
    | nil => rfl
    | cons c m' =>
      obtain ⟨k, v⟩ := c
      have := hr k
      rw [Memory.read_nil, Memory.read_cons, if_pos rfl] at this
      exact absurd this.symm ((Memory.wf_cons k v m').mp h').1
  | cons c m ih =>
    obtain ⟨k, v⟩ := c
    have hc := (Memory.wf_cons k v m).mp h
    cases m' with
    | nil =>
      have := hr k
      rw [Memory.read_nil, Memory.read_cons, if_pos rfl] at this
      exact absurd this hc.1
    | cons c' m' =>
      obtain ⟨k', v'⟩ := c'
      have hc' := (Memory.wf_cons k' v' m').mp h'
      have hk : k = k' := by
        have h1 := hr k
        have h2 := hr k'
        simp only [Memory.read_cons, if_true] at h1 h2
        by_contra hne
        rw [if_neg (fun h => hne h.symm)] at h1
        rw [if_neg hne] at h2
        rcases Nat.lt_or_gt_of_ne hne with hlt | hgt
        · refine hc.1 (h1.trans (Memory.read_below m' k (List.all_eq_true.mpr fun c hcm => ?_)))
          have := List.all_eq_true.mp hc'.2.1 c hcm
          simp only [decide_eq_true_eq] at this ⊢
          omega
        · refine hc'.1 (h2.symm.trans (Memory.read_below m k' (List.all_eq_true.mpr fun c hcm => ?_)))
          have := List.all_eq_true.mp hc.2.1 c hcm
          simp only [decide_eq_true_eq] at this ⊢
          omega
      subst hk
      have hv : v = v' := by simpa [Memory.read_cons] using hr k
      subst hv
      congr 1
      refine ih m' hc.2.2 hc'.2.2 fun a => ?_
      have := hr a
      simp only [Memory.read_cons] at this
      by_cases hak : k = a
      · subst hak
        rw [Memory.read_below m k hc.2.1, Memory.read_below m' k hc'.2.1]
      · simpa [hak] using this

end Sys2Proof.Machine
end

