-- ==== Sys2Proof/Laws/State.lean ====
section
/-! SUPPORT. One lemma per field per update of the state, true by definition, so that no proof unfolds a record update. -/

namespace Sys2Proof.Machine

variable (s : State)

/-! ### `State.record` -/

@[simp] theorem State.record_stg (e : Event) : (s.record e).stg = s.stg := rfl
@[simp] theorem State.record_cfg (e : Event) : (s.record e).cfg = s.cfg := rfl
@[simp] theorem State.record_dev (e : Event) : (s.record e).dev = s.dev := rfl
@[simp] theorem State.record_devCfg (e : Event) : (s.record e).devCfg = s.devCfg := rfl
@[simp] theorem State.record_refused (e : Event) : (s.record e).refused = s.refused := rfl
@[simp] theorem State.record_params (e : Event) : (s.record e).params = s.params := rfl
@[simp] theorem State.record_requests (e : Event) : (s.record e).requests = s.requests := rfl
@[simp] theorem State.record_outcome (e : Event) : (s.record e).outcome = s.outcome := rfl
@[simp] theorem State.record_trace (e : Event) : (s.record e).trace = s.trace ++ [e] := rfl
@[simp] theorem State.record_oracle (e : Event) : (s.record e).oracle = s.oracle := rfl
@[simp] theorem State.record_simRegs (e : Event) : (s.record e).simRegs = s.simRegs := rfl
@[simp] theorem State.record_simFaults (e : Event) : (s.record e).simFaults = s.simFaults := rfl
@[simp] theorem State.record_silentAt (e : Event) : (s.record e).silentAt = s.silentAt := rfl

/-! ### `State.accept` -/

@[simp] theorem State.accept_stg (r : Request) (rest : List Request) : (s.accept r rest).stg = s.stg := rfl
@[simp] theorem State.accept_cfg (r : Request) (rest : List Request) : (s.accept r rest).cfg = s.cfg := rfl
@[simp] theorem State.accept_dev (r : Request) (rest : List Request) : (s.accept r rest).dev = s.dev := rfl
@[simp] theorem State.accept_devCfg (r : Request) (rest : List Request) : (s.accept r rest).devCfg = s.devCfg := rfl
@[simp] theorem State.accept_refused (r : Request) (rest : List Request) : (s.accept r rest).refused = s.refused := rfl
@[simp] theorem State.accept_params (r : Request) (rest : List Request) : (s.accept r rest).params = s.params := rfl
@[simp] theorem State.accept_requests (r : Request) (rest : List Request) : (s.accept r rest).requests = rest := rfl
@[simp] theorem State.accept_outcome (r : Request) (rest : List Request) : (s.accept r rest).outcome = .pending := rfl
@[simp] theorem State.accept_trace (r : Request) (rest : List Request) : (s.accept r rest).trace = s.trace ++ [.request r] := rfl
@[simp] theorem State.accept_oracle (r : Request) (rest : List Request) : (s.accept r rest).oracle = s.oracle := rfl
@[simp] theorem State.accept_simRegs (r : Request) (rest : List Request) : (s.accept r rest).simRegs = s.simRegs := rfl
@[simp] theorem State.accept_simFaults (r : Request) (rest : List Request) : (s.accept r rest).simFaults = s.simFaults := rfl
@[simp] theorem State.accept_silentAt (r : Request) (rest : List Request) : (s.accept r rest).silentAt = s.silentAt := rfl

/-! ### `State.present` -/

@[simp] theorem State.present_stg (r : Response) : (s.present r).stg = s.stg := rfl
@[simp] theorem State.present_cfg (r : Response) : (s.present r).cfg = s.cfg := rfl
@[simp] theorem State.present_dev (r : Response) : (s.present r).dev = s.dev := rfl
@[simp] theorem State.present_devCfg (r : Response) : (s.present r).devCfg = s.devCfg := rfl
@[simp] theorem State.present_refused (r : Response) : (s.present r).refused = s.refused := rfl
@[simp] theorem State.present_params (r : Response) : (s.present r).params = s.params := rfl
@[simp] theorem State.present_requests (r : Response) : (s.present r).requests = s.requests := rfl
@[simp] theorem State.present_outcome (r : Response) : (s.present r).outcome = .responded r := rfl
@[simp] theorem State.present_trace (r : Response) : (s.present r).trace = s.trace ++ [.response r] := rfl
@[simp] theorem State.present_oracle (r : Response) : (s.present r).oracle = s.oracle := rfl
@[simp] theorem State.present_simRegs (r : Response) : (s.present r).simRegs = s.simRegs := rfl
@[simp] theorem State.present_simFaults (r : Response) : (s.present r).simFaults = s.simFaults := rfl
@[simp] theorem State.present_silentAt (r : Response) : (s.present r).silentAt = s.silentAt := rfl

/-! ### `State.respond` -/

@[simp] theorem State.respond_stg (d : List Byte) : (s.respond d).stg = s.stg := rfl
@[simp] theorem State.respond_cfg (d : List Byte) : (s.respond d).cfg = s.cfg := rfl
@[simp] theorem State.respond_dev (d : List Byte) : (s.respond d).dev = s.dev := rfl
@[simp] theorem State.respond_devCfg (d : List Byte) : (s.respond d).devCfg = s.devCfg := rfl
@[simp] theorem State.respond_refused (d : List Byte) : (s.respond d).refused = s.refused := rfl
@[simp] theorem State.respond_params (d : List Byte) : (s.respond d).params = s.params := rfl
@[simp] theorem State.respond_requests (d : List Byte) : (s.respond d).requests = s.requests := rfl
@[simp] theorem State.respond_outcome (d : List Byte) : (s.respond d).outcome = .responded (.ok d) := rfl
@[simp] theorem State.respond_trace (d : List Byte) : (s.respond d).trace = s.trace ++ [.response (.ok d)] := rfl
@[simp] theorem State.respond_oracle (d : List Byte) : (s.respond d).oracle = s.oracle := rfl
@[simp] theorem State.respond_simRegs (d : List Byte) : (s.respond d).simRegs = s.simRegs := rfl
@[simp] theorem State.respond_simFaults (d : List Byte) : (s.respond d).simFaults = s.simFaults := rfl
@[simp] theorem State.respond_silentAt (d : List Byte) : (s.respond d).silentAt = s.silentAt := rfl

/-! ### `State.raise` -/

@[simp] theorem State.raise_stg (e : ErrorKind) : (s.raise e).stg = s.stg := rfl
@[simp] theorem State.raise_cfg (e : ErrorKind) : (s.raise e).cfg = s.cfg := rfl
@[simp] theorem State.raise_dev (e : ErrorKind) : (s.raise e).dev = s.dev := rfl
@[simp] theorem State.raise_devCfg (e : ErrorKind) : (s.raise e).devCfg = s.devCfg := rfl
@[simp] theorem State.raise_refused (e : ErrorKind) : (s.raise e).refused = s.refused := rfl
@[simp] theorem State.raise_params (e : ErrorKind) : (s.raise e).params = s.params := rfl
@[simp] theorem State.raise_requests (e : ErrorKind) : (s.raise e).requests = s.requests := rfl
@[simp] theorem State.raise_outcome (e : ErrorKind) : (s.raise e).outcome = .responded e.response := rfl
@[simp] theorem State.raise_trace (e : ErrorKind) : (s.raise e).trace = s.trace ++ [.response e.response] := rfl
@[simp] theorem State.raise_oracle (e : ErrorKind) : (s.raise e).oracle = s.oracle := rfl
@[simp] theorem State.raise_simRegs (e : ErrorKind) : (s.raise e).simRegs = s.simRegs := rfl
@[simp] theorem State.raise_simFaults (e : ErrorKind) : (s.raise e).simFaults = s.simFaults := rfl
@[simp] theorem State.raise_silentAt (e : ErrorKind) : (s.raise e).silentAt = s.silentAt := rfl

/-! ### `State.refuse` -/

@[simp] theorem State.refuse_stg (w : RefusalReason) : (s.refuse w).stg = s.stg := rfl
@[simp] theorem State.refuse_cfg (w : RefusalReason) : (s.refuse w).cfg = s.cfg := rfl
@[simp] theorem State.refuse_dev (w : RefusalReason) : (s.refuse w).dev = s.dev := rfl
@[simp] theorem State.refuse_devCfg (w : RefusalReason) : (s.refuse w).devCfg = s.devCfg := rfl
@[simp] theorem State.refuse_refused (w : RefusalReason) : (s.refuse w).refused = true := rfl
@[simp] theorem State.refuse_params (w : RefusalReason) : (s.refuse w).params = s.params := rfl
@[simp] theorem State.refuse_requests (w : RefusalReason) : (s.refuse w).requests = s.requests := rfl
@[simp] theorem State.refuse_outcome (w : RefusalReason) : (s.refuse w).outcome = .refusedFor w := rfl
@[simp] theorem State.refuse_trace (w : RefusalReason) : (s.refuse w).trace = s.trace := rfl
@[simp] theorem State.refuse_oracle (w : RefusalReason) : (s.refuse w).oracle = s.oracle := rfl
@[simp] theorem State.refuse_simRegs (w : RefusalReason) : (s.refuse w).simRegs = s.simRegs := rfl
@[simp] theorem State.refuse_simFaults (w : RefusalReason) : (s.refuse w).simFaults = s.simFaults := rfl
@[simp] theorem State.refuse_silentAt (w : RefusalReason) : (s.refuse w).silentAt = s.silentAt := rfl

/-! ### `State.stall` -/

@[simp] theorem State.stall_stg (w : PortWait) : (s.stall w).stg = s.stg := rfl
@[simp] theorem State.stall_cfg (w : PortWait) : (s.stall w).cfg = s.cfg := rfl
@[simp] theorem State.stall_dev (w : PortWait) : (s.stall w).dev = s.dev := rfl
@[simp] theorem State.stall_devCfg (w : PortWait) : (s.stall w).devCfg = s.devCfg := rfl
@[simp] theorem State.stall_refused (w : PortWait) : (s.stall w).refused = s.refused := rfl
@[simp] theorem State.stall_params (w : PortWait) : (s.stall w).params = s.params := rfl
@[simp] theorem State.stall_requests (w : PortWait) : (s.stall w).requests = s.requests := rfl
@[simp] theorem State.stall_outcome (w : PortWait) : (s.stall w).outcome = .stuckOn w := rfl
@[simp] theorem State.stall_trace (w : PortWait) : (s.stall w).trace = s.trace := rfl
@[simp] theorem State.stall_oracle (w : PortWait) : (s.stall w).oracle = s.oracle := rfl
@[simp] theorem State.stall_simRegs (w : PortWait) : (s.stall w).simRegs = s.simRegs := rfl
@[simp] theorem State.stall_simFaults (w : PortWait) : (s.stall w).simFaults = s.simFaults := rfl
@[simp] theorem State.stall_silentAt (w : PortWait) : (s.stall w).silentAt = s.silentAt := rfl

/-! ### `State.setStg` -/

@[simp] theorem State.setStg_stg (x : Settings) : (s.setStg x).stg = x := rfl
@[simp] theorem State.setStg_cfg (x : Settings) : (s.setStg x).cfg = s.cfg := rfl
@[simp] theorem State.setStg_dev (x : Settings) : (s.setStg x).dev = s.dev := rfl
@[simp] theorem State.setStg_devCfg (x : Settings) : (s.setStg x).devCfg = s.devCfg := rfl
@[simp] theorem State.setStg_refused (x : Settings) : (s.setStg x).refused = s.refused := rfl
@[simp] theorem State.setStg_params (x : Settings) : (s.setStg x).params = s.params := rfl
@[simp] theorem State.setStg_requests (x : Settings) : (s.setStg x).requests = s.requests := rfl
@[simp] theorem State.setStg_outcome (x : Settings) : (s.setStg x).outcome = s.outcome := rfl
@[simp] theorem State.setStg_trace (x : Settings) : (s.setStg x).trace = s.trace := rfl
@[simp] theorem State.setStg_oracle (x : Settings) : (s.setStg x).oracle = s.oracle := rfl
@[simp] theorem State.setStg_simRegs (x : Settings) : (s.setStg x).simRegs = s.simRegs := rfl
@[simp] theorem State.setStg_simFaults (x : Settings) : (s.setStg x).simFaults = s.simFaults := rfl
@[simp] theorem State.setStg_silentAt (x : Settings) : (s.setStg x).silentAt = s.silentAt := rfl

/-! ### `State.setCfg` -/

@[simp] theorem State.setCfg_stg (c : Option BuiltConfig) : (s.setCfg c).stg = s.stg := rfl
@[simp] theorem State.setCfg_cfg (c : Option BuiltConfig) : (s.setCfg c).cfg = c := rfl
@[simp] theorem State.setCfg_dev (c : Option BuiltConfig) : (s.setCfg c).dev = s.dev := rfl
@[simp] theorem State.setCfg_devCfg (c : Option BuiltConfig) : (s.setCfg c).devCfg = s.devCfg := rfl
@[simp] theorem State.setCfg_refused (c : Option BuiltConfig) : (s.setCfg c).refused = s.refused := rfl
@[simp] theorem State.setCfg_params (c : Option BuiltConfig) : (s.setCfg c).params = s.params := rfl
@[simp] theorem State.setCfg_requests (c : Option BuiltConfig) : (s.setCfg c).requests = s.requests := rfl
@[simp] theorem State.setCfg_outcome (c : Option BuiltConfig) : (s.setCfg c).outcome = s.outcome := rfl
@[simp] theorem State.setCfg_trace (c : Option BuiltConfig) : (s.setCfg c).trace = s.trace := rfl
@[simp] theorem State.setCfg_oracle (c : Option BuiltConfig) : (s.setCfg c).oracle = s.oracle := rfl
@[simp] theorem State.setCfg_simRegs (c : Option BuiltConfig) : (s.setCfg c).simRegs = s.simRegs := rfl
@[simp] theorem State.setCfg_simFaults (c : Option BuiltConfig) : (s.setCfg c).simFaults = s.simFaults := rfl
@[simp] theorem State.setCfg_silentAt (c : Option BuiltConfig) : (s.setCfg c).silentAt = s.silentAt := rfl

/-! ### `State.setDev` -/

@[simp] theorem State.setDev_stg (d : DevState) : (s.setDev d).stg = s.stg := rfl
@[simp] theorem State.setDev_cfg (d : DevState) : (s.setDev d).cfg = s.cfg := rfl
@[simp] theorem State.setDev_dev (d : DevState) : (s.setDev d).dev = d := rfl
@[simp] theorem State.setDev_devCfg (d : DevState) : (s.setDev d).devCfg = s.devCfg := rfl
@[simp] theorem State.setDev_refused (d : DevState) : (s.setDev d).refused = s.refused := rfl
@[simp] theorem State.setDev_params (d : DevState) : (s.setDev d).params = s.params := rfl
@[simp] theorem State.setDev_requests (d : DevState) : (s.setDev d).requests = s.requests := rfl
@[simp] theorem State.setDev_outcome (d : DevState) : (s.setDev d).outcome = s.outcome := rfl
@[simp] theorem State.setDev_trace (d : DevState) : (s.setDev d).trace = s.trace := rfl
@[simp] theorem State.setDev_oracle (d : DevState) : (s.setDev d).oracle = s.oracle := rfl
@[simp] theorem State.setDev_simRegs (d : DevState) : (s.setDev d).simRegs = s.simRegs := rfl
@[simp] theorem State.setDev_simFaults (d : DevState) : (s.setDev d).simFaults = s.simFaults := rfl
@[simp] theorem State.setDev_silentAt (d : DevState) : (s.setDev d).silentAt = s.silentAt := rfl

/-! ### `State.setDevCfg` -/

@[simp] theorem State.setDevCfg_stg (c : Option BuiltConfig) : (s.setDevCfg c).stg = s.stg := rfl
@[simp] theorem State.setDevCfg_cfg (c : Option BuiltConfig) : (s.setDevCfg c).cfg = s.cfg := rfl
@[simp] theorem State.setDevCfg_dev (c : Option BuiltConfig) : (s.setDevCfg c).dev = s.dev := rfl
@[simp] theorem State.setDevCfg_devCfg (c : Option BuiltConfig) : (s.setDevCfg c).devCfg = c := rfl
@[simp] theorem State.setDevCfg_refused (c : Option BuiltConfig) : (s.setDevCfg c).refused = s.refused := rfl
@[simp] theorem State.setDevCfg_params (c : Option BuiltConfig) : (s.setDevCfg c).params = s.params := rfl
@[simp] theorem State.setDevCfg_requests (c : Option BuiltConfig) : (s.setDevCfg c).requests = s.requests := rfl
@[simp] theorem State.setDevCfg_outcome (c : Option BuiltConfig) : (s.setDevCfg c).outcome = s.outcome := rfl
@[simp] theorem State.setDevCfg_trace (c : Option BuiltConfig) : (s.setDevCfg c).trace = s.trace := rfl
@[simp] theorem State.setDevCfg_oracle (c : Option BuiltConfig) : (s.setDevCfg c).oracle = s.oracle := rfl
@[simp] theorem State.setDevCfg_simRegs (c : Option BuiltConfig) : (s.setDevCfg c).simRegs = s.simRegs := rfl
@[simp] theorem State.setDevCfg_simFaults (c : Option BuiltConfig) : (s.setDevCfg c).simFaults = s.simFaults := rfl
@[simp] theorem State.setDevCfg_silentAt (c : Option BuiltConfig) : (s.setDevCfg c).silentAt = s.silentAt := rfl

/-! ### `State.setSimRegs` -/

@[simp] theorem State.setSimRegs_stg (m : Memory) : (s.setSimRegs m).stg = s.stg := rfl
@[simp] theorem State.setSimRegs_cfg (m : Memory) : (s.setSimRegs m).cfg = s.cfg := rfl
@[simp] theorem State.setSimRegs_dev (m : Memory) : (s.setSimRegs m).dev = s.dev := rfl
@[simp] theorem State.setSimRegs_devCfg (m : Memory) : (s.setSimRegs m).devCfg = s.devCfg := rfl
@[simp] theorem State.setSimRegs_refused (m : Memory) : (s.setSimRegs m).refused = s.refused := rfl
@[simp] theorem State.setSimRegs_params (m : Memory) : (s.setSimRegs m).params = s.params := rfl
@[simp] theorem State.setSimRegs_requests (m : Memory) : (s.setSimRegs m).requests = s.requests := rfl
@[simp] theorem State.setSimRegs_outcome (m : Memory) : (s.setSimRegs m).outcome = s.outcome := rfl
@[simp] theorem State.setSimRegs_trace (m : Memory) : (s.setSimRegs m).trace = s.trace := rfl
@[simp] theorem State.setSimRegs_oracle (m : Memory) : (s.setSimRegs m).oracle = s.oracle := rfl
@[simp] theorem State.setSimRegs_simRegs (m : Memory) : (s.setSimRegs m).simRegs = m := rfl
@[simp] theorem State.setSimRegs_simFaults (m : Memory) : (s.setSimRegs m).simFaults = s.simFaults := rfl
@[simp] theorem State.setSimRegs_silentAt (m : Memory) : (s.setSimRegs m).silentAt = s.silentAt := rfl

/-! ### `State.setRequests` -/

@[simp] theorem State.setRequests_stg (rs : List Request) : (s.setRequests rs).stg = s.stg := rfl
@[simp] theorem State.setRequests_cfg (rs : List Request) : (s.setRequests rs).cfg = s.cfg := rfl
@[simp] theorem State.setRequests_dev (rs : List Request) : (s.setRequests rs).dev = s.dev := rfl
@[simp] theorem State.setRequests_devCfg (rs : List Request) : (s.setRequests rs).devCfg = s.devCfg := rfl
@[simp] theorem State.setRequests_refused (rs : List Request) : (s.setRequests rs).refused = s.refused := rfl
@[simp] theorem State.setRequests_params (rs : List Request) : (s.setRequests rs).params = s.params := rfl
@[simp] theorem State.setRequests_requests (rs : List Request) : (s.setRequests rs).requests = rs := rfl
@[simp] theorem State.setRequests_outcome (rs : List Request) : (s.setRequests rs).outcome = s.outcome := rfl
@[simp] theorem State.setRequests_trace (rs : List Request) : (s.setRequests rs).trace = s.trace := rfl
@[simp] theorem State.setRequests_oracle (rs : List Request) : (s.setRequests rs).oracle = s.oracle := rfl
@[simp] theorem State.setRequests_simRegs (rs : List Request) : (s.setRequests rs).simRegs = s.simRegs := rfl
@[simp] theorem State.setRequests_simFaults (rs : List Request) : (s.setRequests rs).simFaults = s.simFaults := rfl
@[simp] theorem State.setRequests_silentAt (rs : List Request) : (s.setRequests rs).silentAt = s.silentAt := rfl

end Sys2Proof.Machine
end

