-- ==== Sys2Proof/Laws/Ops.lean ====
section
/-! SUPPORT. What each shared operation can do, said once: the port operations and the transport primitives change the
trace, the simulator's registers and (when a port is silent) the outcome, and nothing else; every event they record is
one the bus port allows. -/

namespace Sys2Proof.Machine

/-! ### Answers -/

theorem State.readAnswer_silent (s : State) (a n : Nat) (h : s.portSilent = true) : s.readAnswer a n = none := by
  simp [State.readAnswer, h]

theorem State.writeAnswer_silent (s : State) (a : Nat) (v : Byte) (h : s.portSilent = true) :
    s.writeAnswer a v = none := by
  simp [State.writeAnswer, h]

/-- A port that is not silent answers a read. -/
theorem State.readAnswer_some (s : State) (a n : Nat) (h : s.portSilent = false) : ∃ x, s.readAnswer a n = some x := by
  unfold State.readAnswer
  rw [h]
  cases s.oracle <;> simp

/-- A port that is not silent answers a write. -/
theorem State.writeAnswer_some (s : State) (a : Nat) (v : Byte) (h : s.portSilent = false) :
    ∃ x, s.writeAnswer a v = some x := by
  unfold State.writeAnswer
  rw [h]
  cases s.oracle <;> simp

/-- The simulator's answer to a read whose index is not in the fault set. -/
theorem State.readAnswer_sim_ok (s : State) (a n : Nat) (ho : s.oracle = .sim) (hs : s.portSilent = false)
    (hf : s.simFault = none) : s.readAnswer a n = some (.ok (s.simRegs.readBytes a n)) := by
  simp [State.readAnswer, hs, ho, hf, simulated]

/-- The simulator's answer to a read whose index is in the fault set. -/
theorem State.readAnswer_sim_err (s : State) (a n : Nat) (e : BusErr) (ho : s.oracle = .sim)
    (hs : s.portSilent = false) (hf : s.simFault = some e) : s.readAnswer a n = some (.err e) := by
  simp [State.readAnswer, hs, ho, hf, simulated]

/-- The simulator's answer to a write whose index is not in the fault set. -/
theorem State.writeAnswer_sim_ok (s : State) (a : Nat) (v : Byte) (ho : s.oracle = .sim) (hs : s.portSilent = false)
    (hf : s.simFault = none) : s.writeAnswer a v = some (.ok ()) := by
  simp [State.writeAnswer, hs, ho, hf, simulated]

/-- The simulator's answer to a write whose index is in the fault set. -/
theorem State.writeAnswer_sim_err (s : State) (a : Nat) (v : Byte) (e : BusErr) (ho : s.oracle = .sim)
    (hs : s.portSilent = false) (hf : s.simFault = some e) : s.writeAnswer a v = some (.err e) := by
  simp [State.writeAnswer, hs, ho, hf, simulated]

/-! ### The port operations, by their answer -/

theorem memRead_of_answer {s : State} {a n : Nat} {x : Answer (Vector Byte n)} (h : s.readAnswer a n = some x) :
    memRead a n s = (some x, s.record (.read a n (recorded x))) := by
  simp [memRead, h]

theorem memRead_of_silent {s : State} {a n : Nat} (h : s.readAnswer a n = none) :
    memRead a n s = (none, s.stall (.read a n)) := by
  simp [memRead, h]

theorem memWrite_of_answer {s : State} {a : Nat} {v : Byte} {x : Answer Unit} (h : s.writeAnswer a v = some x) :
    memWrite a v s = (some x, (s.setSimRegs (s.simRegsAfter a v x)).record (.write a v x)) := by
  simp [memWrite, h]

theorem memWrite_of_silent {s : State} {a : Nat} {v : Byte} (h : s.writeAnswer a v = none) :
    memWrite a v s = (none, s.stall (.write a v)) := by
  simp [memWrite, h]

theorem delay_of_answering {s : State} {ms : Nat} (h : s.portSilent = false) :
    delay ms s = (some (.ok ()), s.record (.delay ms)) := by
  simp [delay, h]

theorem delay_of_silent {s : State} {ms : Nat} (h : s.portSilent = true) :
    delay ms s = (none, s.stall (.delay ms)) := by
  simp [delay, h]

/-! ### Sequencing -/

@[simp] theorem Reply.andThen_ok {α β : Type} (a : α) (s : State) (k : α → State → Reply β) :
    Reply.andThen (some (.ok a), s) k = k a s := rfl

@[simp] theorem Reply.andThen_err {α β : Type} (e : BusErr) (s : State) (k : α → State → Reply β) :
    Reply.andThen (some (.err e), s) k = (some (.err e), s) := rfl

@[simp] theorem Reply.andThen_silent {α β : Type} (s : State) (k : α → State → Reply β) :
    Reply.andThen (none, s) k = (none, s) := rfl

@[simp] theorem Reply.finish_ok {α : Type} (a : α) (s : State) (k : α → State → State) :
    Reply.finish (some (.ok a), s) k = k a s := rfl

@[simp] theorem Reply.finish_err {α : Type} (e : BusErr) (s : State) (k : α → State → State) :
    Reply.finish (some (.err e), s) k = s.raise (.busError e) := rfl

@[simp] theorem Reply.finish_silent {α : Type} (s : State) (k : α → State → State) :
    Reply.finish (none, s) k = s := rfl

theorem State.respond_eq (s : State) (d : List Byte) : s.respond d = s.present (.ok d) := rfl

theorem State.raise_eq (s : State) (e : ErrorKind) : s.raise e = s.present e.response := rfl

/-! ### What a run of port operations leaves unchanged -/

/-- `t` comes from `s` by port events: every field but the trace, the simulator's registers and the outcome is the same;
the trace grows by events that satisfy `P`; each register of the simulator outside `W` reads as before; and the outcome
is the same unless a port is silent. -/
structure Ports (P : Event → Prop) (W : Nat → Prop) (s t : State) : Prop where
  stg : t.stg = s.stg
  cfg : t.cfg = s.cfg
  dev : t.dev = s.dev
  devCfg : t.devCfg = s.devCfg
  refused : t.refused = s.refused
  params : t.params = s.params
  requests : t.requests = s.requests
  oracle : t.oracle = s.oracle
  simFaults : t.simFaults = s.simFaults
  silentAt : t.silentAt = s.silentAt
  outcome : t.outcome = s.outcome ∨ ∃ w, t.outcome = .stuckOn w
  trace : ∃ es, t.trace = s.trace ++ es ∧ ∀ e, e ∈ es → P e
  simRegs : ∀ a, ¬ W a → t.simRegs.read a = s.simRegs.read a
  simRegs_wf : s.simRegs.wf = true → t.simRegs.wf = true

theorem Ports.refl {P : Event → Prop} {W : Nat → Prop} (s : State) : Ports P W s s :=
  ⟨rfl, rfl, rfl, rfl, rfl, rfl, rfl, rfl, rfl, rfl, .inl rfl, ⟨[], by simp, by simp⟩, fun _ _ => rfl, id⟩

theorem Ports.trans {P : Event → Prop} {W : Nat → Prop} {s t u : State} (h : Ports P W s t) (k : Ports P W t u) :
    Ports P W s u := by
  obtain ⟨es, h1, h2⟩ := h.trace
  obtain ⟨fs, k1, k2⟩ := k.trace
  refine ⟨k.stg.trans h.stg, k.cfg.trans h.cfg, k.dev.trans h.dev, k.devCfg.trans h.devCfg, k.refused.trans h.refused,
    k.params.trans h.params, k.requests.trans h.requests, k.oracle.trans h.oracle, k.simFaults.trans h.simFaults,
    k.silentAt.trans h.silentAt, ?_, ⟨es ++ fs, by rw [k1, h1, List.append_assoc], ?_⟩,
    fun a ha => (k.simRegs a ha).trans (h.simRegs a ha), fun hw => k.simRegs_wf (h.simRegs_wf hw)⟩
  · rcases k.outcome with ho | ho
    · rcases h.outcome with hp | ⟨w, hp⟩
      · exact .inl (ho.trans hp)
      · exact .inr ⟨w, ho.trans hp⟩
    · exact .inr ho
  · intro e he
    rcases List.mem_append.mp he with he | he
    · exact h2 e he
    · exact k2 e he

/-- One read transaction, answered or not. -/
theorem memRead_ports {P : Event → Prop} {W : Nat → Prop} (a n : Nat) (s : State)
    (hP : ∀ x : Answer (Vector Byte n), P (.read a n (recorded x))) : Ports P W s (memRead a n s).2 := by
  rcases hx : s.readAnswer a n with _ | x
  · rw [memRead_of_silent hx]
    exact ⟨rfl, rfl, rfl, rfl, rfl, rfl, rfl, rfl, rfl, rfl, .inr ⟨_, rfl⟩, ⟨[], by simp, by simp⟩, fun _ _ => rfl, id⟩
  · rw [memRead_of_answer hx]
    refine ⟨rfl, rfl, rfl, rfl, rfl, rfl, rfl, rfl, rfl, rfl, .inl rfl, ⟨[_], rfl, ?_⟩, fun _ _ => rfl, id⟩
    intro e he
    rw [List.mem_singleton.mp he]
    exact hP x

theorem State.simRegsAfter_other (s : State) (a b : Nat) (v : Byte) (x : Answer Unit) (h : a ≠ b) :
    (s.simRegsAfter a v x).read b = s.simRegs.read b := by
  unfold State.simRegsAfter
  cases s.oracle <;> cases x <;> simp [Memory.read_write_other, h]

theorem State.simRegsAfter_wf (s : State) (a : Nat) (v : Byte) (x : Answer Unit) (h : s.simRegs.wf = true) :
    (s.simRegsAfter a v x).wf = true := by
  unfold State.simRegsAfter
  cases s.oracle <;> cases x <;> simp [Memory.wf_write, h]

/-- One write transaction, answered or not. -/
theorem memWrite_ports {P : Event → Prop} {W : Nat → Prop} (a : Nat) (v : Byte) (s : State) (hW : W a)
    (hP : ∀ x : Answer Unit, P (.write a v x)) : Ports P W s (memWrite a v s).2 := by
  rcases hx : s.writeAnswer a v with _ | x
  · rw [memWrite_of_silent hx]
    exact ⟨rfl, rfl, rfl, rfl, rfl, rfl, rfl, rfl, rfl, rfl, .inr ⟨_, rfl⟩, ⟨[], by simp, by simp⟩, fun _ _ => rfl, id⟩
  · rw [memWrite_of_answer hx]
    refine ⟨rfl, rfl, rfl, rfl, rfl, rfl, rfl, rfl, rfl, rfl, .inl rfl, ⟨[_], rfl, ?_⟩, ?_, ?_⟩
    · intro e he
      rw [List.mem_singleton.mp he]
      exact hP x
    · intro b hb
      exact State.simRegsAfter_other s a b v x fun h => hb (h ▸ hW)
    · exact State.simRegsAfter_wf s a v x

/-- One delay, completed or not. -/
theorem delay_ports {P : Event → Prop} {W : Nat → Prop} (ms : Nat) (s : State) (hP : P (.delay ms)) :
    Ports P W s (delay ms s).2 := by
  rcases hx : s.portSilent with _ | _
  · rw [delay_of_answering hx]
    refine ⟨rfl, rfl, rfl, rfl, rfl, rfl, rfl, rfl, rfl, rfl, .inl rfl, ⟨[_], rfl, ?_⟩, fun _ _ => rfl, id⟩
    intro e he
    rw [List.mem_singleton.mp he]
    exact hP
  · rw [delay_of_silent hx]
    exact ⟨rfl, rfl, rfl, rfl, rfl, rfl, rfl, rfl, rfl, rfl, .inr ⟨_, rfl⟩, ⟨[], by simp, by simp⟩, fun _ _ => rfl, id⟩

/-- Sequencing keeps `Ports` when both operations do. -/
theorem Reply.andThen_ports {P : Event → Prop} {W : Nat → Prop} {α β : Type} {s : State} {r : Reply α}
    {k : α → State → Reply β} (hr : Ports P W s r.2) (hk : ∀ a, Ports P W r.2 (k a r.2).2) :
    Ports P W s (r.andThen k).2 := by
  obtain ⟨x, t⟩ := r
  rcases x with _ | x
  · exact hr
  · rcases x with a | e
    · exact hr.trans (hk a)
    · exact hr

theorem tRead_ports {P : Event → Prop} {W : Nat → Prop} (a : Nat) (s : State)
    (hP : ∀ x : Answer (Vector Byte 1), P (.read a 1 (recorded x))) : Ports P W s (tRead a s).2 :=
  Reply.andThen_ports (memRead_ports a 1 s hP) fun _ => Ports.refl _

theorem tWrite_ports {P : Event → Prop} {W : Nat → Prop} (a : Nat) (v : Byte) (s : State) (hW : W a)
    (hP : ∀ x : Answer Unit, P (.write a v x)) : Ports P W s (tWrite a v s).2 :=
  memWrite_ports a v s hW hP

theorem seqRead_ports {P : Event → Prop} {W : Nat → Prop} (a n : Nat) (s : State)
    (hP : ∀ k, k < n → ∀ x : Answer (Vector Byte 1), P (.read (a + k) 1 (recorded x))) :
    Ports P W s (seqRead a n s).2 := by
  induction n with
  | zero => exact Ports.refl s
  | succ n ih =>
    refine Reply.andThen_ports (ih fun k hk => hP k (by omega)) fun _ => ?_
    exact Reply.andThen_ports (memRead_ports (a + n) 1 _ (hP n (by omega))) fun _ => Ports.refl _

theorem tBurst_ports {P : Event → Prop} {W : Nat → Prop} (a n : Nat) (s : State)
    (hF : ∀ x : Answer (Vector Byte n), P (.read a n (recorded x)))
    (hS : ∀ k, k < n → ∀ x : Answer (Vector Byte 1), P (.read (a + k) 1 (recorded x))) :
    Ports P W s (tBurst a n s).2 := by
  unfold tBurst
  split
  · exact memRead_ports a n s hF
  · exact seqRead_ports a n s hS

theorem writeAll_ports {P : Event → Prop} {W : Nat → Prop} (ws : List (Nat × Byte)) (s : State)
    (hW : ∀ w, w ∈ ws → W w.1) (hP : ∀ w, w ∈ ws → ∀ x : Answer Unit, P (.write w.1 w.2 x)) :
    Ports P W s (writeAll ws s).2 := by
  induction ws generalizing s with
  | nil => exact Ports.refl s
  | cons w ws ih =>
    obtain ⟨a, v⟩ := w
    refine Reply.andThen_ports (tWrite_ports a v s (hW (a, v) (by simp)) (hP (a, v) (by simp))) fun _ => ?_
    exact ih _ (fun w hw => hW w (by simp [hw])) fun w hw => hP w (by simp [hw])

end Sys2Proof.Machine
end

