-- ==== Sys2Proof/Laws/Ended.lean ====
section
/-! SUPPORT. How port operations and requests end (60_exceptions.md R200, R206 and R208): the spec of each shared
operation of Machine/Ops.lean, once. -/

namespace Sys2Proof.Machine

/-- How a port operation ends: it records at most `n` events, all of which satisfy `P`; on success and on a silent port
none of them is a failed transaction; on an error the last one is the failed transaction, with the same fault; the
outcome is written only when a port is silent. -/
def Reply.Ran {α : Type} (P : Event → Prop) (n : Nat) (s : State) (r : Reply α) : Prop :=
  ∃ es : List Event, r.2.trace = s.trace ++ es ∧ es.length ≤ n ∧ (∀ e ∈ es, P e) ∧
    match r.1 with
    | some (.ok _) => r.2.outcome = s.outcome ∧ ∀ y ∈ es, y.fault = none
    | some (.err e) => r.2.outcome = s.outcome ∧
        ∃ fs x, es = fs ++ [x] ∧ x.fault = some e ∧ ∀ y ∈ fs, y.fault = none
    | none => ∃ w, r.2.outcome = .stuckOn w ∧ r.2.portSilent = true ∧ ∀ y ∈ es, y.fault = none

theorem Reply.Ran.mono {α : Type} {P Q : Event → Prop} {n m : Nat} {s : State} {r : Reply α} (h : Reply.Ran P n s r)
    (hn : n ≤ m) (hq : ∀ e, P e → Q e) : Reply.Ran Q m s r := by
  obtain ⟨es, h1, h2, h3, h4⟩ := h
  exact ⟨es, h1, h2.trans hn, fun e he => hq e (h3 e he), h4⟩

theorem ok_ran {α : Type} {P : Event → Prop} {n : Nat} (a : α) (s : State) : Reply.Ran P n s (some (.ok a), s) :=
  ⟨[], by simp, by simp, by simp, rfl, by simp⟩

/-- One read transaction. -/
theorem memRead_ran {P : Event → Prop} {a n : Nat} {s : State}
    (hP : ∀ x : Answer (Vector Byte n), P (.read a n (recorded x))) :
    Reply.Ran P 1 s (memRead a n s) := by
  rcases hs : s.portSilent with _ | _
  · obtain ⟨x, hx⟩ := s.readAnswer_some a n hs
    rw [memRead_of_answer hx]
    refine ⟨[.read a n (recorded x)], rfl, by simp, by simpa using hP x, ?_⟩
    rcases x with b | e
    · exact ⟨rfl, by simp [Event.fault, recorded]⟩
    · exact ⟨rfl, [], _, rfl, rfl, by simp⟩
  · rw [memRead_of_silent (s.readAnswer_silent a n hs)]
    exact ⟨[], by simp, by simp, by simp, _, rfl, hs, by simp⟩

/-- One write transaction. -/
theorem memWrite_ran {P : Event → Prop} {a : Nat} {v : Byte} {s : State} (hP : ∀ x, P (.write a v x)) :
    Reply.Ran P 1 s (memWrite a v s) := by
  rcases hs : s.portSilent with _ | _
  · obtain ⟨x, hx⟩ := s.writeAnswer_some a v hs
    rw [memWrite_of_answer hx]
    refine ⟨[.write a v x], rfl, by simp, by simpa using hP x, ?_⟩
    rcases x with b | e
    · exact ⟨rfl, by simp [Event.fault]⟩
    · exact ⟨rfl, [], _, rfl, rfl, by simp⟩
  · rw [memWrite_of_silent (s.writeAnswer_silent a v hs)]
    exact ⟨[], by simp, by simp, by simp, _, rfl, hs, by simp⟩

/-- One delay. -/
theorem delay_ran {P : Event → Prop} {ms : Nat} {s : State} (hP : P (.delay ms)) : Reply.Ran P 1 s (delay ms s) := by
  rcases hs : s.portSilent with _ | _
  · rw [delay_of_answering hs]
    exact ⟨[.delay ms], rfl, by simp, by simpa using hP, rfl, by simp [Event.fault]⟩
  · rw [delay_of_silent hs]
    exact ⟨[], by simp, by simp, by simp, _, rfl, hs, by simp⟩

/-- Two operations in sequence. -/
theorem andThen_ran {α β : Type} {P : Event → Prop} {n m : Nat} {s : State} {r : Reply α} {k : α → State → Reply β}
    (h : Reply.Ran P n s r) (hk : ∀ a, r.1 = some (.ok a) → Reply.Ran P m r.2 (k a r.2)) :
    Reply.Ran P (n + m) s (r.andThen k) := by
  obtain ⟨x, t⟩ := r
  rcases x with _ | (a | e)
  · exact h.mono (by omega) fun _ => id
  · obtain ⟨es, h1, h2, h3, h4, h5⟩ := h
    replace h1 : t.trace = s.trace ++ es := h1
    obtain ⟨fs, k1, k2, k3, k4⟩ := hk a rfl
    refine ⟨es ++ fs, by simp [k1, h1], by simp; omega, ?_, ?_⟩
    · intro e he; rcases List.mem_append.mp he with he | he
      · exact h3 e he
      · exact k3 e he
    · revert k4
      simp only [Reply.andThen]
      rcases (k a t).1 with _ | (b | e)
      · rintro ⟨w, q1, q2, q3⟩
        exact ⟨w, q1, q2, fun y hy => (List.mem_append.mp hy).elim (h5 y) (q3 y)⟩
      · rintro ⟨q1, q3⟩
        exact ⟨q1.trans h4, fun y hy => (List.mem_append.mp hy).elim (h5 y) (q3 y)⟩
      · rintro ⟨q1, gs, z, q2, q3, q4⟩
        exact ⟨q1.trans h4, es ++ gs, z, by simp [q2], q3, fun y hy => (List.mem_append.mp hy).elim (h5 y) (q4 y)⟩
  · exact h.mono (by omega) fun _ => id

theorem tRead_ran {P : Event → Prop} {a : Nat} {s : State}
    (hP : ∀ x : Answer (Vector Byte 1), P (.read a 1 (recorded x))) :
    Reply.Ran P 1 s (tRead a s) :=
  andThen_ran (m := 0) (memRead_ran hP) fun _ _ => ok_ran _ _

theorem seqRead_ran {P : Event → Prop} {a n : Nat} {s : State}
    (hP : ∀ k, k < n → ∀ x : Answer (Vector Byte 1), P (.read (a + k) 1 (recorded x))) :
    Reply.Ran P n s (seqRead a n s) := by
  induction n with
  | zero => exact ok_ran _ _
  | succ n ih =>
    exact andThen_ran (ih fun k hk => hP k (by omega)) fun _ _ =>
      andThen_ran (m := 0) (memRead_ran (hP n (by omega))) fun _ _ => ok_ran _ _

theorem tBurst_ran {P : Event → Prop} {a n : Nat} {s : State} (hn : 1 ≤ n)
    (hF : ∀ x : Answer (Vector Byte n), P (.read a n (recorded x)))
    (hP : ∀ k, k < n → ∀ x : Answer (Vector Byte 1), P (.read (a + k) 1 (recorded x))) :
    Reply.Ran P n s (tBurst a n s) := by
  unfold tBurst; split
  · exact (memRead_ran hF).mono hn fun _ => id
  · exact seqRead_ran hP

theorem writeAll_ran {P : Event → Prop} {ws : List (Nat × Byte)} {s : State}
    (hP : ∀ w ∈ ws, ∀ x, P (.write w.1 w.2 x)) :
    Reply.Ran P ws.length s (writeAll ws s) := by
  induction ws generalizing s with
  | nil => exact ok_ran _ _
  | cons w ws ih =>
    obtain ⟨a, v⟩ := w
    have := andThen_ran (P := P) (m := ws.length) (k := fun _ s1 => writeAll ws s1)
      (memWrite_ran (a := a) (v := v) (s := s) (hP (a, v) (by simp)))
      fun _ _ => ih fun w hw => hP w (by simp [hw])
    rw [List.length_cons, Nat.add_comm]; exact this

/-- How a request that is not refused ends: with one response after at most `n` port events, the last of which is the
failed transaction exactly when the response is `BUS_ERROR`; or waiting for a silent port. -/
def State.Ended (P : Event → Prop) (n : Nat) (s t : State) : Prop :=
  ∃ es : List Event, es.length ≤ n ∧ (∀ e ∈ es, P e) ∧
   ((∃ x, t.outcome = .responded x ∧ t.trace = s.trace ++ es ++ [.response x] ∧
      match x with
      | .busError e => ∃ fs y, es = fs ++ [y] ∧ y.fault = some e ∧ ∀ z ∈ fs, z.fault = none
      | _ => ∀ z ∈ es, z.fault = none) ∨
    (∃ w, t.outcome = .stuckOn w ∧ t.trace = s.trace ++ es ∧ t.portSilent = true ∧ ∀ z ∈ es, z.fault = none))

theorem present_ended {P : Event → Prop} {n : Nat} {s t : State} {x : Response} (hx : ∀ e, x ≠ .busError e)
    (ht : t.trace = s.trace ++ [.response x]) (ho : t.outcome = .responded x) : State.Ended P n s t := by
  refine ⟨[], by simp, by simp, .inl ⟨x, ho, by simp [ht], ?_⟩⟩
  cases x <;> simp at hx ⊢

/-- Ending the request after an operation. -/
theorem finish_ended {α : Type} {P : Event → Prop} {n m : Nat} {s : State} {r : Reply α} {k : α → State → State}
    (h : Reply.Ran P n s r) (hk : ∀ a, r.1 = some (.ok a) → State.Ended P m r.2 (k a r.2)) :
    State.Ended P (n + m) s (r.finish k) := by
  obtain ⟨x, t⟩ := r
  rcases x with _ | (a | e)
  · obtain ⟨es, h1, h2, h3, w, h4, h5, h6⟩ := h
    exact ⟨es, by omega, h3, .inr ⟨w, h4, h1, h5, h6⟩⟩
  · obtain ⟨es, h1, h2, h3, h4, h5⟩ := h
    replace h1 : t.trace = s.trace ++ es := h1
    obtain ⟨fs, k2, k3, k4⟩ := hk a rfl
    refine ⟨es ++ fs, by simp; omega, ?_, ?_⟩
    · intro e he; rcases List.mem_append.mp he with he | he
      · exact h3 e he
      · exact k3 e he
    · simp only [Reply.finish]
      rcases k4 with ⟨x, q1, q2, q3⟩ | ⟨w, q1, q2, q3, q4⟩
      · refine .inl ⟨x, q1, by simp [q2, h1], ?_⟩
        have h5' : (∀ z ∈ fs, z.fault = none) → ∀ z ∈ es ++ fs, z.fault = none :=
          fun g y hy => (List.mem_append.mp hy).elim (h5 y) (g y)
        cases x <;> simp only at q3 ⊢
        · exact h5' q3
        · obtain ⟨gs, y, g1, g2, g3⟩ := q3
          exact ⟨es ++ gs, y, by simp [g1], g2, fun z hz => (List.mem_append.mp hz).elim (h5 z) (g3 z)⟩
        · exact h5' q3
        · exact h5' q3
        · exact h5' q3
      · exact .inr ⟨w, q1, by simp [q2, h1], q3, fun y hy => (List.mem_append.mp hy).elim (h5 y) (q4 y)⟩
  · obtain ⟨es, h1, h2, h3, h4, fs, y, h5, h6, h7⟩ := h
    replace h1 : t.trace = s.trace ++ es := h1
    refine ⟨es, by omega, h3, .inl ⟨.busError e, rfl, ?_, fs, y, h5, h6, h7⟩⟩
    simp [State.raise, State.present, ErrorKind.response, h1]

end Sys2Proof.Machine
end

