-- ==== Sys2Proof/Laws/PerInstr.lean ====
section
/-! SUPPORT. Statements about every request as syntax, one lemma per constructor: the reserved field of its word is 0
(30_encoding.md R80) and its payload has the length its operation code gives (R86). -/

namespace Sys2Proof.Laws.EncodedShape

/-- The encoded word has `C = 0`, and the payload is as long as `PLEN(OPC)`. -/
def Statement (i : Instr) : Prop := (encode i).c = 0 ∧ (encode i).payload.length = plen (encode i).opc

theorem plain_shape (o a b : Byte) (h : plen o = 0) :
    (plain o a b).c = 0 ∧ (plain o a b).payload.length = plen (plain o a b).opc := by
  simp [plain, h]

theorem rdreg (addr : Byte) : Statement (.rdreg addr) := plain_shape 0x01 addr 0 rfl
theorem wrreg (addr data : Byte) : Statement (.wrreg addr data) := plain_shape 0x02 addr data rfl
theorem rdburst (addr n : Byte) : Statement (.rdburst addr n) := plain_shape 0x03 addr n rfl
theorem cfgNew : Statement .cfgNew := plain_shape 0x10 0 0 rfl
theorem cfgOdr (code : Odr) : Statement (.cfgOdr code) := plain_shape 0x11 code.code 0 rfl
theorem cfgBw (code : Bw) : Statement (.cfgBw code) := plain_shape 0x12 code.code 0 rfl
theorem cfgPmode (code : PMode) : Statement (.cfgPmode code) := plain_shape 0x13 code.code 0 rfl
theorem cfgHpf (enabled : Bool) : Statement (.cfgHpf enabled) := plain_shape 0x14 (enableCode enabled) 0 rfl
theorem cfgLpf (enabled : Bool) : Statement (.cfgLpf enabled) := plain_shape 0x15 (enableCode enabled) 0 rfl
theorem cfgBuild : Statement .cfgBuild := plain_shape 0x16 0 0 rfl
theorem devNew : Statement .devNew := plain_shape 0x20 0 0 rfl
theorem devInit : Statement .devInit := plain_shape 0x21 0 0 rfl
theorem devReadxyz : Statement .devReadxyz := plain_shape 0x22 0 0 rfl
theorem devDrop : Statement .devDrop := plain_shape 0x23 0 0 rfl
theorem convRaw (p0 p1 p2 p3 p4 p5 : Byte) : Statement (.convRaw p0 p1 p2 p3 p4 p5) := by
  constructor <;> simp [encode, plen]
theorem scale (x y z : I16) : Statement (.scale x y z) := by
  constructor <;> simp [encode, plen]

end Sys2Proof.Laws.EncodedShape
end

