-- ==== Sys2Proof/Laws/Transport.lean ====
section
/-! SUPPORT. The transport primitives by the answers they get: one transaction, or the sequential reads of a bus that
does not frame bursts (40_transport.md R103 to R105). -/

namespace Sys2Proof.Machine

theorem tRead_ok {s : State} {a : Nat} {b : Byte} (h : s.readAnswer a 1 = some (.ok #v[b])) :
    tRead a s = (some (.ok b), { s with trace := s.trace ++ [.read a 1 (.ok [b])] }) := by
  simp [tRead, memRead, h, recorded, State.record]

theorem tRead_err {s : State} {a : Nat} {e : BusErr} (h : s.readAnswer a 1 = some (.err e)) :
    tRead a s = (some (.err e), { s with trace := s.trace ++ [.read a 1 (.err e)] }) := by
  simp [tRead, memRead, h, recorded, State.record]

theorem tRead_silent {s : State} {a : Nat} (h : s.readAnswer a 1 = none) : tRead a s = (none, s.stall (.read a 1)) := by
  simp [tRead, memRead, h]

theorem tWrite_ok {s : State} {a : Nat} {v : Byte} (h : s.writeAnswer a v = some (.ok ())) :
    tWrite a v s = (some (.ok ()), s.afterWrite a v) := by
  simp [tWrite, memWrite, h, State.record, State.setSimRegs, State.afterWrite]

theorem State.simRegsAfter_err (s : State) (a : Nat) (v : Byte) (e : BusErr) :
    s.simRegsAfter a v (.err e) = s.simRegs := by
  unfold State.simRegsAfter
  cases s.oracle <;> rfl

theorem tWrite_err {s : State} {a : Nat} {v : Byte} {e : BusErr} (h : s.writeAnswer a v = some (.err e)) :
    tWrite a v s = (some (.err e), { s with trace := s.trace ++ [.write a v (.err e)] }) := by
  simp [tWrite, memWrite, h, State.record, State.setSimRegs, State.simRegsAfter_err]

theorem tWrite_silent {s : State} {a : Nat} {v : Byte} (h : s.writeAnswer a v = none) :
    tWrite a v s = (none, s.stall (.write a v)) := by
  simp [tWrite, memWrite, h]

theorem State.afterReads_nil (s : State) (a : Nat) : s.afterReads a [] = s := by simp [State.afterReads]

theorem State.afterReads_one (s : State) (a : Nat) (b : Byte) :
    s.afterReads a [b] = { s with trace := s.trace ++ [.read a 1 (.ok [b])] } := by
  simp [State.afterReads]

theorem State.afterReads_snoc (s : State) (a : Nat) (bs : List Byte) (b : Byte) :
    s.afterReads a (bs ++ [b]) =
      { s.afterReads a bs with trace := (s.afterReads a bs).trace ++ [.read (a + bs.length) 1 (.ok [b])] } := by
  simp [State.afterReads, List.mapIdx_append]

/-- The fallback when every read succeeds. -/
theorem seqRead_ok (s : State) (a n : Nat) (b : Vector Byte n)
    (h : ∀ (k : Nat) (hk : k < n),
      (s.afterReads a (b.toList.take k)).readAnswer (a + k) 1 = some (.ok #v[b[k]])) :
    seqRead a n s = (some (.ok b), s.afterReads a b.toList) := by
  induction n with
  | zero =>
    have : b = #v[] := by simp
    subst this
    simp [seqRead, State.afterReads_nil]
  | succ n ih =>
    have hb := (Vector.push_pop_back b).symm
    generalize hc : b.pop = c at hb
    generalize b.back = x at hb
    clear hc
    subst hb
    have h1 := ih c fun k hk => by
      have := h k (by omega)
      simp [Vector.toList_push, List.take_append_of_le_length, Nat.le_of_lt hk, Vector.getElem_push_lt hk] at this
      simpa using this
    have h2 := h n (by omega)
    simp [Vector.toList_push] at h2
    simp only [seqRead, h1, Reply.andThen_ok]
    rw [memRead_of_answer (x := .ok #v[x]) (by simpa using h2)]
    simp [Vector.toList_push, State.afterReads_snoc, recorded, State.record]

/-- A list as a vector of its length. -/
theorem exists_vector {n : Nat} (bs : List Byte) (h : bs.length = n) :
    ∃ b : Vector Byte n, b.toList = bs ∧ ∀ (k : Nat) (hk : k < n), b[k] = bs[k]'(by omega) := by
  subst h
  exact ⟨⟨bs.toArray, by simp⟩, rfl, fun k hk => rfl⟩

theorem seqRead_stops {a n m : Nat} {s t : State} {e : BusErr} (h : seqRead a n s = (some (.err e), t)) (hm : n ≤ m) :
    seqRead a m s = (some (.err e), t) := by
  induction m with
  | zero =>
    have : n = 0 := by omega
    subst this
    exact h
  | succ m ih =>
    rcases Nat.lt_or_ge m n with hl | hg
    · have : n = m + 1 := by omega
      subst this
      exact h
    · simp [seqRead, ih hg]

/-- The fallback when the first `bs.length` reads succeed and the next fails. -/
theorem seqRead_fails (s : State) (a n : Nat) (bs : List Byte) (e : BusErr) (hl : bs.length < n)
    (h : ∀ (k : Nat) (hk : k < bs.length),
      (s.afterReads a (bs.take k)).readAnswer (a + k) 1 = some (.ok #v[bs[k]]))
    (he : (s.afterReads a bs).readAnswer (a + bs.length) 1 = some (.err e)) :
    seqRead a n s = (some (.err e), { s.afterReads a bs with
      trace := (s.afterReads a bs).trace ++ [.read (a + bs.length) 1 (.err e)] }) := by
  obtain ⟨b, hb, hk⟩ := exists_vector bs rfl
  refine seqRead_stops (n := bs.length + 1) ?_ (by omega)
  have := seqRead_ok s a bs.length b fun k h' => by rw [hb, hk k h']; exact h k h'
  simp only [seqRead, this, Reply.andThen_ok, hb]
  rw [memRead_of_answer he]
  rfl

end Sys2Proof.Machine
end

