-- ==== Sys2Proof/Tests/Slice0.lean ====
section
/-! SUPPORT. Tests of single steps against the vectors of 95_test_vectors.md (their ids stand in the docstrings), decoding
of words written out from 30_encoding.md, and for every obligation with hypotheses a concrete case that meets them. -/

namespace Sys2Proof.Tests

open Sys2Proof Sys2Proof.Machine

/-! ### States -/

/-- `sim[0x00] = AD`, `sim[0x08..0x0D] = 00 10 FF F0 12 34` (L3.1), every other register 0. -/
def goldRegs : Memory := [(0x00, 0xAD), (0x09, 0x10), (0x0A, 0xFF), (0x0B, 0xF0), (0x0C, 0x12), (0x0D, 0x34)]

/-- The reset state in front of the simulator (20_memory.md R62). -/
def idle : State := { State.reset with params := Params.decided .spi, oracle := .sim, simRegs := goldRegs }

/-- A bus that does not frame bursts. -/
def unframed : State := { idle with params := { Params.decided .spi with framedSpi := false } }

/-- `F = {j}`, with the fault `e_j`. -/
def failing (j : Nat) (s : State) : State := { s with simFaults := [(j, ⟨j⟩)] }

/-- The port event `j` is never completed. -/
def silent (j : Nat) (s : State) : State := { s with silentAt := some j }

/-- The default config, `00 00 03`. -/
def config : BuiltConfig := build Settings.default

/-- A built config and no device. -/
def built : State := { idle with cfg := some config }

/-- A device that is not initialised. -/
def fresh : State := { built with dev := .uninitialized, devCfg := some config }

/-- An initialised device. -/
def ready : State := { fresh with dev := .ready }

/-- The same device behind a bus that does not frame bursts. -/
def readyUnframed : State := { unframed with cfg := some config, dev := .ready, devCfg := some config }

/-- The host presents a word without payload. -/
def asked (w : Word) (s : State) : State := s.setRequests [⟨w, []⟩]

/-- The state after a request or a step that answers one. -/
def after (o : Host.Outcome State Fault Refusal) : State :=
  match o with
  | .next t => t
  | .fault _ => State.reset
  | .refused _ => State.reset

/-- What became of the request, if the machine goes on. -/
def result (o : Host.Outcome State Fault Refusal) : Option ReqOutcome :=
  match o with
  | .next t => some t.outcome
  | .fault _ => none
  | .refused _ => none

/-- An `OK` with data. -/
def okay (d : List Byte) : Option ReqOutcome := some (.responded (.ok d))

/-! ### Well-formedness: an ill-formed term for each check, and the boundary cases that pass -/

theorem test_wf_address_of_rdreg : (Instr.rdreg 0x80).wf (Params.decided .spi) = false := by decide
theorem test_wf_address_of_wrreg : (Instr.wrreg 0x80 0).wf (Params.decided .spi) = false := by decide
theorem test_wf_address_of_rdburst : (Instr.rdburst 0x80 1).wf (Params.decided .spi) = false := by decide
theorem test_wf_burst_nonempty : (Instr.rdburst 0x08 0).wf (Params.decided .spi) = false := by decide
theorem test_wf_burst_fits : (Instr.rdburst 0x7C 5).wf (Params.decided .spi) = false := by decide
theorem test_wf_accepts_the_edges : (Instr.rdreg 0x7F).wf (Params.decided .spi) = true ∧
    (Instr.rdburst 0x7F 1).wf (Params.decided .spi) = true ∧
    (Instr.rdburst 0x00 128).wf (Params.decided .spi) = true := by decide

/-! ### Decoding: a word for every constructor, written out from 30_encoding.md R85 -/

/-- The decoder at the decided parameters. -/
def read (w : Word) (payload : List Byte) : Option Instr := (decode (Params.decided .spi) ⟨w, payload⟩).toOption

theorem test_decode_rdreg : read 0x017F0000 [] = some (.rdreg 0x7F) := by decide
theorem test_decode_wrreg : read 0x023EFF00 [] = some (.wrreg 0x3E 0xFF) := by decide
theorem test_decode_rdburst : read 0x03080600 [] = some (.rdburst 0x08 6) := by decide
theorem test_decode_rdburst_of_all : read 0x03008000 [] = some (.rdburst 0x00 128) := by decide
theorem test_decode_cfgNew : read 0x10000000 [] = some .cfgNew := by decide
theorem test_decode_cfgOdr : read 0x11030000 [] = some (.cfgOdr .hz3200) := by decide
theorem test_decode_cfgBw : read 0x12040000 [] = some (.cfgBw .hz3200) := by decide
theorem test_decode_cfgPmode : read 0x13030000 [] = some (.cfgPmode .fullBw) := by decide
theorem test_decode_cfgHpf : read 0x14000000 [] = some (.cfgHpf false) := by decide
theorem test_decode_cfgLpf : read 0x15010000 [] = some (.cfgLpf true) := by decide
theorem test_decode_cfgBuild : read 0x16000000 [] = some .cfgBuild := by decide
theorem test_decode_devNew : read 0x20000000 [] = some .devNew := by decide
theorem test_decode_devInit : read 0x21000000 [] = some .devInit := by decide
theorem test_decode_devReadxyz : read 0x22000000 [] = some .devReadxyz := by decide
theorem test_decode_devDrop : read 0x23000000 [] = some .devDrop := by decide
theorem test_decode_convRaw : read 0x30000000 [0x00, 0x10, 0xFF, 0xF0, 0x12, 0x34] =
    some (.convRaw 0x00 0x10 0xFF 0xF0 0x12 0x34) := by decide
theorem test_decode_scale : read 0x31000000 [0x80, 0x00, 0x7F, 0xFF, 0x01, 0x23] =
    some (.scale (-32768) 32767 291) := by decide

/-- V-T4, V-T5, V-T15, V-T16, V-C6, V-V9, V-V10 and section 2.5: reserved. -/
theorem test_decode_reserved :
    [read 0x01800000 [], read 0x01000001 [], read 0x03080000 [], read 0x037C0500 [], read 0x11050000 [],
     read 0x12070000 [], read 0x13040000 [], read 0x14020000 [], read 0x15FF0000 [], read 0x11000100 [],
     read 0x30000000 [0, 0, 0, 0, 0], read 0x30000100 [0, 0, 0, 0, 0, 0], read 0x01000000 [0], read 0x00000000 [],
     read 0x04000000 [], read 0x17000000 [], read 0x24000000 [], read 0x32000000 [], read 0xFF000000 []]
      = List.replicate 19 none := by decide

/-- No two rows of the opcode table have a word in common. -/
theorem test_rows_disjoint : opcodeTable.Pairwise fun a b =>
    a.pattern &&& (a.mask &&& b.mask) ≠ b.pattern &&& (a.mask &&& b.mask) := by
  decide

/-- The rows' own bits, numbered as the opcode table numbers them, with a payload of zeros where there is one. -/
theorem test_decodeTableWord : decodeTableWord 32 0x02000000 = some (.wrreg 0 0) ∧
    decodeTableWord 80 0x010000000000 = none ∧
    decodeTableWord 80 0xFF31000000 = some (.scale (-256) 0 0) ∧
    decodeTableWord 32 0x31000000 = some (.scale 0 0 0) := by decide

/-! ### The assembler (30_encoding.md R90 and R91, programs of 95_test_vectors.md) -/

theorem test_assemble_wrreg : Asm.assemble "WRREG 0x3F, 0x03" = some [⟨0x023F0300, []⟩] := by decide
theorem test_assemble_symbols : Asm.assemble "CFG_ODR ODR_6400" = some [⟨0x11040000, []⟩] ∧
    Asm.assemble "CFG_LPF off" = some [⟨0x15000000, []⟩] := by decide
theorem test_assemble_scale : Asm.assemble "SCALE 1, -1, 291" =
    some [⟨0x31000000, [0x00, 0x01, 0xFF, 0xFF, 0x01, 0x23]⟩] := by decide
theorem test_assemble_config : Asm.assemble "CONFIG ODR_800, BW_400, FULL_BW, on, off" =
    some [⟨0x10000000, []⟩, ⟨0x11010000, []⟩, ⟨0x12010000, []⟩, ⟨0x13030000, []⟩, ⟨0x14010000, []⟩,
      ⟨0x15000000, []⟩, ⟨0x16000000, []⟩] := by decide

/-! ### Transport requests -/

/-- V-T2 with the identity register. -/
theorem test_rdreg : result (exec (.rdreg 0x00) idle) = okay [0xAD] ∧
    (after (exec (.rdreg 0x00) idle)).trace = [.read 0x00 1 (.ok [0xAD]), .response (.ok [0xAD])] := by decide

/-- V-T3 and V-T17. -/
theorem test_rdreg_fails : result (exec (.rdreg 0x3F) (failing 0 idle)) = some (.responded (.busError ⟨0⟩)) ∧
    result (exec (.rdreg 0x00) fresh) = some (.refusedFor .transportOwned) := by decide

/-- V-T6. -/
theorem test_wrreg : result (exec (.wrreg 0x3F 0x03) idle) = okay [] ∧
    (after (exec (.wrreg 0x3F 0x03) idle)).simRegs.read 0x3F = 0x03 := by decide

/-- V-T8. -/
theorem test_wrreg_fails : result (exec (.wrreg 0x3E 0xFF) (failing 0 idle)) = some (.responded (.busError ⟨0⟩)) ∧
    (after (exec (.wrreg 0x3E 0xFF) (failing 0 idle))).simRegs = goldRegs := by decide

/-- V-T9 and V-T10. -/
theorem test_rdburst : result (exec (.rdburst 0x08 6) idle) = okay [0x00, 0x10, 0xFF, 0xF0, 0x12, 0x34] ∧
    result (exec (.rdburst 0x08 6) unframed) = okay [0x00, 0x10, 0xFF, 0xF0, 0x12, 0x34] := by decide

/-- V-T11. -/
theorem test_rdburst_stops : (after (exec (.rdburst 0x08 6) (failing 2 unframed))).trace =
    [.read 0x08 1 (.ok [0x00]), .read 0x09 1 (.ok [0x10]), .read 0x0A 1 (.err ⟨2⟩),
     .response (.busError ⟨2⟩)] := by decide

/-! ### Builder requests -/

/-- V-C7. -/
theorem test_cfgNew :
    (after (exec .cfgNew { built with stg := { Settings.default with odr := .hz6400 } })).stg.odr = .hz400 ∧
    (after (exec .cfgNew built)).cfg = some config := by decide

/-- V-C5: the setter does not look at the combination. -/
theorem test_cfgBw : result (exec (.cfgBw .hz3200) idle) = okay [] ∧
    (after (exec (.cfgBw .hz3200) idle)).stg = ⟨.hz400, .hz3200, .fullBw, true, true⟩ := by decide

theorem test_cfgOdr : (after (exec (.cfgOdr .hz3200) idle)).stg = ⟨.hz3200, .hz200, .fullBw, true, true⟩ := by decide
theorem test_cfgPmode : (after (exec (.cfgPmode .standby) idle)).stg = ⟨.hz400, .hz200, .standby, true, true⟩ := by decide
theorem test_cfgHpf : (after (exec (.cfgHpf false) idle)).stg = ⟨.hz400, .hz200, .fullBw, false, true⟩ := by decide
theorem test_cfgLpf : (after (exec (.cfgLpf false) idle)).stg = ⟨.hz400, .hz200, .fullBw, true, false⟩ := by decide

/-- The answer of `CFG_BUILD` to a staging. -/
def buildOf (o : Odr) (b : Bw) (m : PMode) (h l : Bool) : Option ReqOutcome :=
  result (exec .cfgBuild { idle with stg := ⟨o, b, m, h, l⟩ })

/-- V-C1, the corners of the table; V-C8's row. -/
theorem test_cfgBuild_pairs : buildOf .hz400 .hz200 .fullBw true true = okay [0x00, 0x00, 0x03] ∧
    buildOf .hz400 .hz400 .fullBw true true = some (.responded .invalidConfig) ∧
    buildOf .hz3200 .hz3200 .fullBw true true = some (.responded .invalidConfig) ∧
    buildOf .hz6400 .hz3200 .fullBw true true = okay [0x80, 0x04, 0x03] ∧
    buildOf .hz1600 .hz800 .fullBw true true = okay [0x40, 0x02, 0x03] := by decide

/-- V-C2, the three differing bits apart and together; V-C4: a failed build clears the built config. -/
theorem test_cfgBuild_power : buildOf .hz800 .hz400 .fullBw true false = okay [0x20, 0x01, 0x0B] ∧
    buildOf .hz400 .hz200 .wakeup false true = okay [0x00, 0x00, 0x05] ∧
    buildOf .hz400 .hz200 .instantOn false false = okay [0x00, 0x00, 0x0E] ∧
    (after (exec .cfgBuild { built with stg := ⟨.hz400, .hz400, .fullBw, true, true⟩ })).cfg = none := by decide

/-- V-C3. -/
theorem test_unpack : unpack ⟨0x20, 0x01, 0x0B⟩ = some ⟨.hz800, .hz400, .fullBw, true, false⟩ ∧
    unpack ⟨0x80, 0x04, 0x0C⟩ = some ⟨.hz6400, .hz3200, .standby, false, false⟩ ∧
    unpack ⟨0xFF, 0x07, 0xFF⟩ = none ∧
    unpack ⟨0x9F, 0x03, 0xF3⟩ = some ⟨.hz6400, .hz1600, .fullBw, true, true⟩ := by decide

/-! ### Device requests -/

/-- V-D2 and V-D1. -/
theorem test_devNew : (after (exec .devNew built)).dev = .uninitialized ∧
    (after (exec .devNew built)).devCfg = some config ∧
    result (exec .devNew idle) = some (.refusedFor .noConfig) := by decide

/-- V-D18. -/
theorem test_devNew_owned : result (exec .devNew { fresh with cfg := none }) = some (.refusedFor .transportOwned) := by decide

/-- V-D3. -/
theorem test_devInit : (after (exec .devInit fresh)).trace =
    [.read 0x00 1 (.ok [0xAD]), .write 0x3D 0x00 (.ok ()), .write 0x3E 0x00 (.ok ()), .write 0x3F 0x03 (.ok ()),
     .delay 370, .response (.ok [])] ∧ (after (exec .devInit fresh)).dev = .ready := by decide

/-- V-D8 from `Ready` (V-D9), and V-D4. -/
theorem test_devInit_fails : (after (exec .devInit (failing 3 ready))).trace =
    [.read 0x00 1 (.ok [0xAD]), .write 0x3D 0x00 (.ok ()), .write 0x3E 0x00 (.ok ()), .write 0x3F 0x03 (.err ⟨3⟩),
     .response (.busError ⟨3⟩)] ∧ (after (exec .devInit (failing 3 ready))).dev = .uninitialized ∧
    (after (exec .devInit { fresh with simRegs := [(0x00, 0xFA)] })).trace =
      [.read 0x00 1 (.ok [0xFA]), .response .identityMismatch] := by decide

/-- V-D12 and V-D13. -/
theorem test_devReadxyz : result (exec .devReadxyz ready) = okay [0x00, 0x01, 0xFF, 0xFF, 0x01, 0x23] ∧
    result (exec .devReadxyz { ready with simRegs :=
      [(0x08, 0x7F), (0x09, 0xF0), (0x0A, 0x80), (0x0C, 0xFF), (0x0D, 0xFF)] }) =
      okay [0x07, 0xFF, 0xF8, 0x00, 0xFF, 0xFF] := by decide

/-- V-D11 and V-D15. -/
theorem test_devReadxyz_fails : result (exec .devReadxyz (failing 0 fresh)) = some (.responded .notReady) ∧
    (after (exec .devReadxyz (failing 0 fresh))).trace = [.response .notReady] ∧
    result (exec .devReadxyz (failing 4 readyUnframed)) = some (.responded (.busError ⟨4⟩)) ∧
    (after (exec .devReadxyz (failing 4 readyUnframed))).dev = .ready := by decide

/-- V-D16 and V-D17. -/
theorem test_devDrop : (after (exec .devDrop ready)).dev = .noDevice ∧ (after (exec .devDrop ready)).devCfg = none ∧
    (after (exec .devDrop ready)).cfg = some config ∧
    result (exec .devDrop idle) = some (.refusedFor .noDevice) := by decide

/-! ### Conversion requests -/

/-- A state with other readings of the axis pairs. -/
def reading (o : Order) (a : Align) : State := { idle with params := { Params.decided .spi with order := o, align := a } }

/-- L1.1, the four rows. -/
theorem test_convRaw : result (exec (.convRaw 0x00 0x10 0xFF 0xF0 0x12 0x34) idle) =
      okay [0x00, 0x01, 0xFF, 0xFF, 0x01, 0x23] ∧
    result (exec (.convRaw 0x00 0x10 0xFF 0xF0 0x12 0x34) (reading .highFirst .lsb)) =
      okay [0x00, 0x10, 0xFF, 0xF0, 0x02, 0x34] ∧
    result (exec (.convRaw 0x00 0x10 0xFF 0xF0 0x12 0x34) (reading .lowFirst .msb)) =
      okay [0x01, 0x00, 0xFF, 0x0F, 0x03, 0x41] ∧
    result (exec (.convRaw 0x00 0x10 0xFF 0xF0 0x12 0x34) (reading .lowFirst .lsb)) =
      okay [0x00, 0x00, 0x00, 0xFF, 0x04, 0x12] := by decide

/-- V-V4. -/
theorem test_convRaw_lanes : result (exec (.convRaw 0xAB 0xCD 0x01 0x00 0xF8 0x00) idle) =
    okay [0xFA, 0xBC, 0x00, 0x10, 0xFF, 0x80] := by decide

/-- V-V7. -/
theorem test_scale : result (exec (.scale 2047 (-2048) 0) idle) =
    okay [0x00, 0x03, 0x1F, 0x9C, 0xFF, 0xFC, 0xE0, 0x00, 0x00, 0x00, 0x00, 0x00] := by decide

/-- V-V8. -/
theorem test_scale_extremes : result (exec (.scale (-32768) 32767 (-1)) idle) =
    okay [0xFF, 0xCE, 0x00, 0x00, 0x00, 0x31, 0xFF, 0x9C, 0xFF, 0xFF, 0xFF, 0x9C] := by decide

/-! ### The step -/

/-- V-T1 as a step: the request, the transaction and the response are recorded. -/
theorem test_step : (after (step (asked 0x01000000 idle))).trace =
    [.request ⟨0x01000000, []⟩, .read 0x00 1 (.ok [0xAD]), .response (.ok [0xAD])] := by decide

/-- V-T4 as a step. -/
theorem test_step_reserved : result (step (asked 0x01800000 idle)) = some (.refusedFor .reservedEncoding) ∧
    (after (step (asked 0x01800000 idle))).refused = true := by decide

/-- A row's bits run as the first request after reset. -/
theorem test_withFetchWord : result (step (State.reset.withFetchWord 32 0x16000000)) = okay [0x00, 0x00, 0x03] ∧
    result (step (State.reset.withFetchWord 32 0x20000000)) = some (.refusedFor .noConfig) := by decide

/-! ### Witnesses: for each obligation with hypotheses, concrete states and operands that meet them, clause by clause -/

/-- The request or step goes on. -/
def goesOn (o : Host.Outcome State Fault Refusal) : Prop := o = .next (after o)

theorem goes_on {o : Host.Outcome State Fault Refusal} (h : (result o).isSome = true) : goesOn o := by
  cases o <;> simp_all [result, goesOn, after]

/-- A device about to be initialised, with the request presented, satisfies the invariant. -/
theorem asked_inv : (asked 0x21000000 fresh).Inv where
  params_wf := by decide
  device_iff_config := by decide
  cfg_wf := by intro c hc; cases hc; decide
  devCfg_wf := by intro c hc; cases hc; decide
  simRegs_wf := by decide
  simRegs_inside := by
    intro a ha
    have h : 128 ≤ a := ha
    change Memory.read goldRegs a = _
    simp only [goldRegs, Memory.read]
    repeat' split
    all_goals first | rfl | omega
  trace_legal := by intro e he; cases he

theorem witness_StepKeepsTheInvariant : (asked 0x21000000 fresh).Inv ∧ goesOn (step (asked 0x21000000 fresh)) :=
  ⟨asked_inv, goes_on (by decide)⟩

theorem witness_UnstuckStatesHaveAStep : (asked 0x21000000 fresh).Inv ∧ (asked 0x21000000 fresh).stuck = false :=
  ⟨asked_inv, by decide⟩

theorem witness_ReachableStatesAreSoundAndHaveAStep : Reachable (State.reset.setRequests [⟨0x16000000, []⟩]) :=
  .host _ _ .reset

theorem witness_StepPerformsTheDecodedRequest : (asked 0x017F0000 idle).stuck = false ∧
    (asked 0x017F0000 idle).requests = [⟨0x017F0000, []⟩] ∧
    (decode idle.params ⟨0x017F0000, []⟩).toOption = some (.rdreg 0x7F) := by decide

theorem witness_StepWithoutARequest : (idle.stuck = false ∧ idle.requests = []) ∧
    { idle with outcome := .stuckOn (.delay 370) }.outcome = .stuckOn (.delay 370) := by decide

theorem witness_StepEndsTheRequestItTakes :
    ((asked 0x01000000 idle).stuck = false ∧ goesOn (step (asked 0x01000000 idle))) ∧
    ((asked 0x20000000 idle).stuck = false ∧ goesOn (step (asked 0x20000000 idle))) ∧
    ((asked 0x01000000 (silent 0 idle)).stuck = false ∧ goesOn (step (asked 0x01000000 (silent 0 idle)))) :=
  ⟨⟨by decide, goes_on (by decide)⟩, ⟨by decide, goes_on (by decide)⟩, by decide, goes_on (by decide)⟩

theorem witness_DecodeOfEncode : (Instr.rdburst 0x7F 1).wf (Params.decided .i2c) = true ∧
    (Instr.rdburst 0x00 128).wf (Params.decided .i2c) = true ∧ (Instr.scale 1 (-1) 291).wf (Params.decided .i2c) = true := by
  decide

theorem witness_EncodeOfDecode : (decode (Params.decided .i2c) ⟨0x14010000, []⟩).toOption = some (.cfgHpf true) := by decide

theorem witness_DecoderFollowsTheOpcodeTable : read 0x03080600 [] = some (.rdburst 0x08 6) ∧
    (opcodeTable.filter fun row => row.matches ⟨0x03080600, []⟩).map OpcodeRow.mnemonic = ["RDBURST"] := by decide

theorem witness_ReservedRequestsAreRefused : (asked 0x01800000 idle).stuck = false ∧
    (decode (asked 0x01800000 idle).params ⟨0x01800000, []⟩ = .error .addressTooWide) := ⟨by decide, rfl⟩

theorem witness_PseudoRequestsExpand :
    (goesOn (exec .devReadxyz ready) ∧
      (after (exec .devReadxyz ready)).outcome = .responded (.ok [0x00, 0x01, 0xFF, 0xFF, 0x01, 0x23])) ∧
    (goesOn (exec .devReadxyz fresh) ∧ ∀ d : List Byte, (after (exec .devReadxyz fresh)).outcome ≠ .responded (.ok d)) ∧
    (goesOn (exec .devReadxyz idle) ∧ ∀ d : List Byte, (after (exec .devReadxyz idle)).outcome ≠ .responded (.ok d)) :=
  ⟨⟨goes_on (by decide), by decide⟩, ⟨goes_on (by decide), fun d h => by cases h⟩,
    goes_on (by decide), fun d h => by cases h⟩

theorem witness_TransportPrimitivesAreOneTransaction : idle.readAnswer 0x00 1 = some (.ok #v[0xAD]) ∧
    (failing 0 idle).readAnswer 0x7F 1 = some (.err ⟨0⟩) ∧ idle.writeAnswer 0x3F 0x03 = some (.ok ()) ∧
    (failing 0 idle).writeAnswer 0x3F 0x03 = some (.err ⟨0⟩) := by decide

theorem witness_SimulatorAnswersTransactions : (idle.oracle = .sim ∧ idle.portSilent = false ∧
      idle.simFaults.lookup idle.trace.transactions = none ∧ idle.simRegs.wf = true) ∧
    ((failing 0 idle).oracle = .sim ∧ (failing 0 idle).portSilent = false ∧
      (failing 0 idle).simFaults.lookup (failing 0 idle).trace.transactions = some ⟨0⟩) := by decide

theorem witness_DelayIsRecordedWithItsDuration : idle.portSilent = false := by decide

theorem witness_SilentPortsLeaveTheBlockStuck : (silent 0 idle).portSilent = true ∧
    goesOn (exec .devInit (silent 4 fresh)) ∧
    (after (exec .devInit (silent 4 fresh))).outcome = .stuckOn (.delay 370) ∧
    goesOn (exec (.wrreg 0x3F 0x03) (silent 0 idle)) ∧
    (after (exec (.wrreg 0x3F 0x03) (silent 0 idle))).outcome = .stuckOn (.write 0x3F 0x03) ∧
    ((silent 0 idle).dev = .noDevice ∧ 1 ≤ (1 : Byte).toNat) ∧
    ((silent 0 unframed).dev = .noDevice ∧ (silent 0 unframed).portSilent = true) ∧
    ((silent 0 ready).dev = .ready ∧ (silent 0 ready).portSilent = true ∧ (silent 0 ready).devCfg = some config) :=
  ⟨by decide, goes_on (by decide), by decide, goes_on (by decide), by decide, by decide, by decide, by decide⟩

theorem witness_RdregReadsOneRegister : (0x7F : Byte).toNat < idle.params.space ∧ idle.params.space ≤ (0x80 : Byte).toNat ∧
    fresh.dev ≠ .noDevice ∧ ready.dev ≠ .noDevice ∧
    (idle.dev = .noDevice ∧ idle.readAnswer (0x00 : Byte).toNat 1 = some (.ok #v[0xAD])) ∧
    ((failing 0 idle).dev = .noDevice ∧ (failing 0 idle).readAnswer (0x7F : Byte).toNat 1 = some (.err ⟨0⟩)) := by decide

theorem witness_WrregWritesOneRegister : (0x7F : Byte).toNat < idle.params.space ∧ fresh.dev ≠ .noDevice ∧
    (idle.dev = .noDevice ∧ idle.writeAnswer (0x3F : Byte).toNat 0x03 = some (.ok ()) ∧ idle.oracle = .sim ∧
      idle.simRegs.wf = true) ∧
    ((failing 0 idle).dev = .noDevice ∧ (failing 0 idle).writeAnswer (0x3E : Byte).toNat 0xFF = some (.err ⟨0⟩)) ∧
    State.reset.oracle = .free := by decide

theorem witness_RdburstReadsContiguousRegisters :
    (1 ≤ (1 : Byte).toNat ∧ (0x7F : Byte).toNat + (1 : Byte).toNat ≤ idle.params.space) ∧
    idle.params.space < (0x7C : Byte).toNat + (5 : Byte).toNat ∧ fresh.dev ≠ .noDevice ∧
    (idle.dev = .noDevice ∧ idle.params.framed = true ∧
      idle.readAnswer (0x0C : Byte).toNat (2 : Byte).toNat = some (.ok #v[0x12, 0x34])) ∧
    ((failing 0 idle).dev = .noDevice ∧ (failing 0 idle).params.framed = true ∧
      (failing 0 idle).readAnswer (0x08 : Byte).toNat (6 : Byte).toNat = some (.err ⟨0⟩)) ∧
    (unframed.dev = .noDevice ∧ unframed.params.framed = false ∧
      ∀ (k : Nat) (h : k < [0x12, 0x34].length), (unframed.afterReads (0x0C : Byte).toNat
        (([0x12, 0x34] : List Byte).take k)).readAnswer ((0x0C : Byte).toNat + k) 1 =
          some (.ok #v[([0x12, 0x34] : List Byte)[k]])) ∧
    ((failing 1 unframed).dev = .noDevice ∧ (failing 1 unframed).params.framed = false ∧
      (∀ (k : Nat) (h : k < [0x12].length), ((failing 1 unframed).afterReads (0x0C : Byte).toNat
        (([0x12] : List Byte).take k)).readAnswer ((0x0C : Byte).toNat + k) 1 = some (.ok #v[([0x12] : List Byte)[k]])) ∧
      ((failing 1 unframed).afterReads (0x0C : Byte).toNat [0x12]).readAnswer ((0x0C : Byte).toNat + 1) 1 =
        some (.err ⟨1⟩)) := by decide

theorem witness_BurstBytesAscendEitherWay : (idle.oracle = .sim ∧ idle.simFaults = [] ∧ idle.silentAt = none ∧
      idle.dev = .noDevice ∧ idle.params.framed = true) ∧
    (unframed.oracle = .sim ∧ unframed.simFaults = [] ∧ unframed.silentAt = none ∧ unframed.dev = .noDevice ∧
      unframed.params.framed = false) := by decide

theorem witness_DeviceOwnsTheTransport : fresh.dev ≠ .noDevice ∧ ready.dev ≠ .noDevice := by decide

theorem witness_PackedBytesFollowTheLayouts : ChipField.odr.pos.reg = .timing ∧ ChipField.odr.pos.lo ≤ 7 ∧
    7 < ChipField.odr.pos.lo + ChipField.odr.pos.width := by decide

/-- `bw = odr` as codes is exactly half the rate; one code more is not legal. -/
theorem witness_LegalMeansBandwidthAtMostHalfTheRate : legal ⟨.hz800, .hz400, .fullBw, true, true⟩ = true ∧
    2 * Bw.hz400.hz = Odr.hz800.hz ∧ legal ⟨.hz800, .hz800, .fullBw, true, true⟩ = false := by decide

theorem witness_MaskAndShiftFieldsAreIndependent : Field.hpfDisable ≠ Field.mode ∧
    Field.hpfDisable.pos.reg = Field.mode.pos.reg := by decide

theorem witness_UnpackRecoversSettings :
    unpack ⟨0x9F, 0x03, 0xF3⟩ = some ⟨.hz6400, .hz1600, .fullBw, true, true⟩ := by decide

theorem witness_RateBandwidthAndModeSettersWriteTheStaging : 4 < (5 : Byte).toNat ∧ 3 < (4 : Byte).toNat := by decide

theorem witness_FilterSettersWriteTheStaging : 1 < (2 : Byte).toNat := by decide

/-- A staging with the rate 400 Hz and the bandwidth 400 Hz. -/
def illegal : State := { idle with stg := ⟨.hz400, .hz400, .fullBw, true, true⟩ }

theorem witness_CfgBuildValidatesAndPacks : idle.stg.bw.code.toNat ≤ idle.stg.odr.code.toNat ∧
    illegal.stg.odr.code.toNat < illegal.stg.bw.code.toNat := by decide

theorem witness_BuilderRequestsIgnoreBusAndDevice : Instr.cfgBuild.isBuilder = true := by decide

theorem witness_DevNewConstructsTheDevice : fresh.dev ≠ .noDevice ∧ (idle.dev = .noDevice ∧ idle.cfg = none) ∧
    (built.dev = .noDevice ∧ built.cfg = some config) := by decide

/-- The states of `DEV_INIT` with the default config before each transaction and the delay. -/
def init0 (s : State) : State := { s with dev := .uninitialized }
def init1 (s : State) : State := (init0 s).afterReads 0x00 [0xAD]
def init2 (s : State) : State := (init1 s).afterWrite 0x3D 0x00
def init3 (s : State) : State := (init2 s).afterWrite 0x3E 0x00
def init4 (s : State) : State := (init3 s).afterWrite 0x3F 0x03

theorem witness_DevInitRunsItsSequence : idle.dev = .noDevice ∧
    (fresh.dev ≠ .noDevice ∧ fresh.devCfg = some config ∧ ready.dev ≠ .noDevice ∧ ready.devCfg = some config) ∧
    (init0 (failing 0 fresh)).readAnswer 0x00 1 = some (.err ⟨0⟩) ∧
    (init0 { fresh with simRegs := [(0x00, 0xFA)] }).readAnswer 0x00 1 = some (.ok #v[0xFA]) ∧
    (init0 fresh).readAnswer 0x00 1 = some (.ok #v[fresh.params.idExpected]) ∧
    (init1 (failing 1 fresh)).writeAnswer 0x3D config.packed.timing = some (.err ⟨1⟩) ∧
    (init1 fresh).writeAnswer 0x3D config.packed.timing = some (.ok ()) ∧
    (init2 (failing 2 fresh)).writeAnswer 0x3E config.packed.measure = some (.err ⟨2⟩) ∧
    (init2 fresh).writeAnswer 0x3E config.packed.measure = some (.ok ()) ∧
    (init3 (failing 3 fresh)).writeAnswer 0x3F config.packed.powerCtl = some (.err ⟨3⟩) ∧
    (init3 fresh).writeAnswer 0x3F config.packed.powerCtl = some (.ok ()) ∧
    (init4 fresh).portSilent = false := by decide

theorem witness_IdentityMismatchWritesNothing : ready.dev ≠ .noDevice ∧ ready.devCfg = some config ∧
    (0xFA : Byte) ≠ ready.params.idExpected ∧
    (init0 { ready with simRegs := [(0x00, 0xFA)] }).readAnswer 0x00 1 = some (.ok #v[0xFA]) := by decide

theorem witness_FailedInitLeavesUninitialized : ready.dev ≠ .noDevice ∧ goesOn (exec .devInit (failing 2 ready)) ∧
    (after (exec .devInit (failing 2 ready))).outcome = .responded (.busError ⟨2⟩) :=
  ⟨by decide, goes_on (by decide), by decide⟩

theorem witness_ReadyMeansTheWholeSequenceRan :
    (goesOn (exec .devInit fresh) ∧ (after (exec .devInit fresh)).dev = .ready) ∧
    (goesOn (exec .cfgNew ready) ∧ (after (exec .cfgNew ready)).dev = .ready) :=
  ⟨⟨goes_on (by decide), by decide⟩, goes_on (by decide), by decide⟩

theorem witness_DevReadxyzReadsOneSample : idle.dev = .noDevice ∧ fresh.dev = .uninitialized ∧
    (ready.dev = .ready ∧ ready.params.framed = true ∧
      ready.readAnswer ready.params.dataStart 6 = some (.ok #v[0x00, 0x10, 0xFF, 0xF0, 0x12, 0x34])) ∧
    (failing 0 ready).readAnswer ready.params.dataStart 6 = some (.err ⟨0⟩) ∧
    (readyUnframed.dev = .ready ∧ readyUnframed.params.framed = false ∧
      ∀ (k : Nat) (h : k < 6), (readyUnframed.afterReads 0x08
        ((#v[0x00, 0x10, 0xFF, 0xF0, 0x12, 0x34] : Vector Byte 6).toList.take k)).readAnswer (0x08 + k) 1 =
          some (.ok #v[(#v[0x00, 0x10, 0xFF, 0xF0, 0x12, 0x34] : Vector Byte 6)[k]])) ∧
    (∀ (k : Nat) (h : k < [0x00].length), ((failing 1 readyUnframed).afterReads 0x08
        (([0x00] : List Byte).take k)).readAnswer (0x08 + k) 1 = some (.ok #v[([0x00] : List Byte)[k]])) ∧
    ((failing 1 readyUnframed).afterReads 0x08 [0x00]).readAnswer (0x08 + 1) 1 = some (.err ⟨1⟩) := by decide

theorem witness_ReadBeforeInitIsNotReady : fresh.dev = .uninitialized := by decide

theorem witness_DevDropReleasesTheDevice : idle.dev = .noDevice ∧ fresh.dev ≠ .noDevice ∧ ready.dev ≠ .noDevice := by decide

theorem witness_DeviceTransitionsFollowTheTable :
    (goesOn (exec .devNew built) ∧ (after (exec .devNew built)).dev ≠ built.dev) ∧
    (goesOn (exec .devInit fresh) ∧ (after (exec .devInit fresh)).dev ≠ fresh.dev) ∧
    (goesOn (exec .devInit (failing 0 ready)) ∧ (after (exec .devInit (failing 0 ready))).dev ≠ ready.dev) ∧
    (goesOn (exec .devDrop ready) ∧ (after (exec .devDrop ready)).dev ≠ ready.dev) :=
  ⟨⟨goes_on (by decide), by decide⟩, ⟨goes_on (by decide), by decide⟩, ⟨goes_on (by decide), by decide⟩,
    goes_on (by decide), by decide⟩

theorem witness_ConfigsAreCopiesAndImmutable :
    (goesOn (exec .devNew built) ∧ (after (exec .devNew built)).devCfg ≠ built.devCfg) ∧
    (goesOn (exec .devDrop ready) ∧ (after (exec .devDrop ready)).devCfg ≠ ready.devCfg) ∧
    (goesOn (exec .cfgBuild idle) ∧ (after (exec .cfgBuild idle)).cfg ≠ idle.cfg) :=
  ⟨⟨goes_on (by decide), by decide⟩, ⟨goes_on (by decide), by decide⟩, goes_on (by decide), by decide⟩

theorem witness_DeviceRequestsIgnoreTheBuilder : goesOn (exec .devInit fresh) ∧ goesOn (exec .devReadxyz ready) ∧
    goesOn (exec .devDrop ready) := ⟨goes_on (by decide), goes_on (by decide), goes_on (by decide)⟩

theorem witness_ConvertPairsExtractsAndExtends :
    ((Params.decided .spi).order = .highFirst ∧ (Params.decided .spi).align = .msb ∧
      (0x7F : Byte).toNat * 16 + (0xF0 : Byte).toNat / 16 = 2047 ∧
      (0x80 : Byte).toNat * 16 + (0x0F : Byte).toNat / 16 = 2048) ∧
    ((reading .lowFirst .lsb).params.order = .lowFirst ∧ (reading .lowFirst .lsb).params.align = .lsb ∧
      (0x17 : Byte).toNat % 16 * 256 + (0xFF : Byte).toNat = 2047) := by decide

theorem witness_ConvRawIsPure : idle.params.order = ready.params.order ∧ idle.params.align = ready.params.align := by decide

theorem witness_ScalingIsExact : (Params.decided .spi).sens < 2 ^ 16 ∧ 65535 < 2 ^ 16 := by decide

theorem witness_ScaleAnswersThreeProducts :
    enc32 (scaleValue idle.params 1) ++ enc32 (scaleValue idle.params (-1)) ++ enc32 (scaleValue idle.params 291) =
      [0x00, 0x00, 0x00, 0x64, 0xFF, 0xFF, 0xFF, 0x9C, 0x00, 0x00, 0x71, 0xAC] ∧
    (-3276800 : I32).toInt = (-32768 : I16).toInt * idle.params.sens ∧
    (3276700 : I32).toInt = (32767 : I16).toInt * idle.params.sens ∧
    (0 : I32).toInt = (0 : I16).toInt * idle.params.sens ∧ idle.params.sens = 100 := by decide

theorem witness_LanesAreIndependent : (#v[0xAB, 0xCD, 0x01, 0x00, 0xF8, 0x00] : Vector Byte 6)[0] =
      (#v[0xAB, 0xCD, 0x00, 0x00, 0x00, 0x00] : Vector Byte 6)[0] ∧
    (#v[0xAB, 0xCD, 0x01, 0x00, 0xF8, 0x00] : Vector Byte 6)[1] =
      (#v[0xAB, 0xCD, 0x00, 0x00, 0x00, 0x00] : Vector Byte 6)[1] := by decide

theorem witness_ErrorsHaveTheirListedCauses :
    (goesOn (exec (.rdreg 0) idle) ∧ (after (exec (.rdreg 0) idle)).outcome = .responded (.ok [0xAD])) ∧
    (goesOn (exec .devInit (failing 1 fresh)) ∧
      (after (exec .devInit (failing 1 fresh))).outcome = .responded (.busError ⟨1⟩)) ∧
    (goesOn (exec .devInit { fresh with simRegs := [] }) ∧
      (after (exec .devInit { fresh with simRegs := [] })).outcome = .responded .identityMismatch) ∧
    (goesOn (exec .cfgBuild illegal) ∧ (after (exec .cfgBuild illegal)).outcome = .responded .invalidConfig) ∧
    (goesOn (exec .devReadxyz fresh) ∧ (after (exec .devReadxyz fresh)).outcome = .responded .notReady) :=
  ⟨⟨goes_on (by decide), by decide⟩, ⟨goes_on (by decide), by decide⟩, ⟨goes_on (by decide), by decide⟩,
    ⟨goes_on (by decide), by decide⟩, goes_on (by decide), by decide⟩

theorem witness_ErrorsWriteOnlyWhatTheyList : goesOn (exec .cfgBuild illegal) ∧
    (after (exec .cfgBuild illegal)).outcome = .responded .invalidConfig ∧
    ∀ d : List Byte, Response.invalidConfig ≠ .ok d :=
  ⟨goes_on (by decide), by decide, fun d h => by cases h⟩

theorem witness_RefusalsAreExactlyTheListedOnes : refusalOf .devNew idle = some .noConfig ∧
    refusalOf .devNew { fresh with cfg := none } = some .transportOwned ∧ refusalOf .devDrop idle = some .noDevice ∧
    (refusalOf .devNew built = none ∧ goesOn (exec .devNew built)) :=
  ⟨by decide, by decide, by decide, by decide, goes_on (by decide)⟩

/-- A run that is marked, with a request presented. -/
def marked : State := asked 0x10000000 { idle with refused := true }

theorem witness_TheMarkIsNeverCleared : goesOn (step marked) ∧ marked.refused = true := ⟨goes_on (by decide), by decide⟩

theorem witness_FieldsAreWrittenByTheirRequestsOnly :
    (goesOn (exec (.cfgOdr .hz800) idle) ∧ (after (exec (.cfgOdr .hz800) idle)).stg.odr ≠ idle.stg.odr) ∧
    (goesOn (exec (.cfgBw .hz400) idle) ∧ (after (exec (.cfgBw .hz400) idle)).stg.bw ≠ idle.stg.bw) ∧
    (goesOn (exec (.cfgPmode .standby) idle) ∧ (after (exec (.cfgPmode .standby) idle)).stg.mode ≠ idle.stg.mode) ∧
    (goesOn (exec (.cfgHpf false) idle) ∧ (after (exec (.cfgHpf false) idle)).stg.hpfEn ≠ idle.stg.hpfEn) ∧
    (goesOn (exec (.cfgLpf false) idle) ∧ (after (exec (.cfgLpf false) idle)).stg.lpfEn ≠ idle.stg.lpfEn) ∧
    (goesOn (exec .devNew built) ∧ (after (exec .devNew built)).dev ≠ built.dev ∧
      (after (exec .devNew built)).devCfg ≠ built.devCfg) ∧
    (goesOn (exec .devNew idle) ∧ (after (exec .devNew idle)).refused ≠ idle.refused) ∧
    (goesOn (exec (.wrreg 0x7F 0x5A) idle) ∧
      (after (exec (.wrreg 0x7F 0x5A) idle)).simRegs.read 0x7F ≠ idle.simRegs.read 0x7F) :=
  ⟨⟨goes_on (by decide), by decide⟩, ⟨goes_on (by decide), by decide⟩, ⟨goes_on (by decide), by decide⟩,
    ⟨goes_on (by decide), by decide⟩, ⟨goes_on (by decide), by decide⟩, ⟨goes_on (by decide), by decide, by decide⟩,
    ⟨goes_on (by decide), by decide⟩, goes_on (by decide), by decide⟩

theorem witness_RequestsHaveBoundedPortEvents : (Instr.rdburst 0x7F 1).wf unframed.params = true ∧
    goesOn (exec (.rdburst 0x7F 1) unframed) ∧ Instr.cfgBuild.usesPorts = false := ⟨by decide, goes_on (by decide), by decide⟩

end Sys2Proof.Tests
end

section
/-! PROOF. Who writes the built config and the device's config (10_state.md R25 and R26): the port operations write
neither, so no request does but `CFG_BUILD`, `DEV_NEW` and `DEV_DROP`. -/

namespace Sys2Proof.Machine

/-! ### Operations that write neither config -/

/-- `t` has the built config and the device's config of `s`. -/
structure SameConfigs (s t : State) : Prop where
  cfg : t.cfg = s.cfg
  devCfg : t.devCfg = s.devCfg

theorem SameConfigs.trans {s t u : State} (h : SameConfigs s t) (k : SameConfigs t u) : SameConfigs s u :=
  ⟨k.cfg.trans h.cfg, k.devCfg.trans h.devCfg⟩

theorem respond_sameConfigs (s : State) (d : List Byte) : SameConfigs s (s.respond d) := ⟨rfl, rfl⟩

theorem raise_sameConfigs (s : State) (e : ErrorKind) : SameConfigs s (s.raise e) := ⟨rfl, rfl⟩

theorem refuse_sameConfigs (s : State) (w : RefusalReason) : SameConfigs s (s.refuse w) := ⟨rfl, rfl⟩

theorem setDev_sameConfigs (s : State) (d : DevState) : SameConfigs s (s.setDev d) := ⟨rfl, rfl⟩

theorem stage_sameConfigs (s : State) (x : Settings) : SameConfigs s (s.stage x) := ⟨rfl, rfl⟩

/-- Port events write neither config, whatever they are and whatever they write behind the port. -/
theorem Ports.sameConfigs {s t : State} (h : Ports (fun _ => True) (fun _ => True) s t) : SameConfigs s t :=
  ⟨h.cfg, h.devCfg⟩

theorem tRead_sameConfigs (a : Nat) (s : State) : SameConfigs s (tRead a s).2 :=
  (tRead_ports a s fun _ => trivial).sameConfigs

theorem tWrite_sameConfigs (a : Nat) (v : Byte) (s : State) : SameConfigs s (tWrite a v s).2 :=
  (tWrite_ports a v s trivial fun _ => trivial).sameConfigs

theorem tBurst_sameConfigs (a n : Nat) (s : State) : SameConfigs s (tBurst a n s).2 :=
  (tBurst_ports a n s (fun _ => trivial) fun _ _ _ => trivial).sameConfigs

theorem writeAll_sameConfigs (ws : List (Nat × Byte)) (s : State) : SameConfigs s (writeAll ws s).2 :=
  (writeAll_ports ws s (fun _ _ => trivial) fun _ _ _ => trivial).sameConfigs

theorem delay_sameConfigs (ms : Nat) (s : State) : SameConfigs s (delay ms s).2 :=
  (delay_ports ms s trivial).sameConfigs

/-- A request that ends after an operation writes neither config when the operation and what follows it do not. -/
theorem finish_sameConfigs {α : Type} {s : State} {r : Reply α} {k : α → State → State} (hr : SameConfigs s r.2)
    (hk : ∀ a u, SameConfigs u (k a u)) : SameConfigs s (r.finish k) := by
  obtain ⟨x, u⟩ := r
  rcases x with _ | (a | e)
  · exact hr
  · exact hr.trans (hk a u)
  · exact hr.trans (raise_sameConfigs u _)

theorem withTransport_sameConfigs {s k : State} (h : SameConfigs s k) : SameConfigs s (s.withTransport k) := by
  unfold State.withTransport
  cases s.dev with
  | noDevice => exact h
  | uninitialized => exact refuse_sameConfigs s _
  | ready => exact refuse_sameConfigs s _

/-! ### The device requests that use the ports -/

theorem settle_sameConfigs (s : State) : SameConfigs s (settle s) :=
  finish_sameConfigs (delay_sameConfigs _ s) fun _ u => (setDev_sameConfigs u _).trans (respond_sameConfigs _ _)

theorem configure_sameConfigs (c : BuiltConfig) (s : State) : SameConfigs s (configure c s) :=
  finish_sameConfigs (writeAll_sameConfigs _ s) fun _ u => settle_sameConfigs u

theorem initSequence_sameConfigs (c : BuiltConfig) (s : State) : SameConfigs s (initSequence c s) := by
  refine (setDev_sameConfigs s _).trans (finish_sameConfigs (tRead_sameConfigs _ _) fun b u => ?_)
  split
  · exact configure_sameConfigs c u
  · exact raise_sameConfigs u _

theorem execDevInit_sameConfigs {s t : State} (h : execDevInit s = .next t) : SameConfigs s t := by
  unfold execDevInit at h
  split at h <;> cases h
  · exact refuse_sameConfigs s _
  · exact initSequence_sameConfigs _ s
  · exact initSequence_sameConfigs _ s

theorem execDevReadxyz_sameConfigs {s t : State} (h : execDevReadxyz s = .next t) : SameConfigs s t := by
  cases h
  split
  · exact refuse_sameConfigs s _
  · exact raise_sameConfigs s _
  · exact finish_sameConfigs (tBurst_sameConfigs _ _ s) fun _ u => respond_sameConfigs u _

/-- Every request but the three writers leaves both configs as they are. -/
theorem exec_sameConfigs {i : Instr} {s t : State} (h : exec i s = .next t) (hbuild : i ≠ .cfgBuild)
    (hnew : i ≠ .devNew) (hdrop : i ≠ .devDrop) : SameConfigs s t := by
  cases i with
  | rdreg addr =>
    cases h
    exact withTransport_sameConfigs (finish_sameConfigs (tRead_sameConfigs _ s) fun _ u => respond_sameConfigs u _)
  | wrreg addr data =>
    cases h
    exact withTransport_sameConfigs (finish_sameConfigs (tWrite_sameConfigs _ _ s) fun _ u => respond_sameConfigs u _)
  | rdburst addr n =>
    cases h
    exact withTransport_sameConfigs (finish_sameConfigs (tBurst_sameConfigs _ _ s) fun _ u => respond_sameConfigs u _)
  | cfgNew => cases h; exact stage_sameConfigs s _
  | cfgOdr code => cases h; exact stage_sameConfigs s _
  | cfgBw code => cases h; exact stage_sameConfigs s _
  | cfgPmode code => cases h; exact stage_sameConfigs s _
  | cfgHpf enabled => cases h; exact stage_sameConfigs s _
  | cfgLpf enabled => cases h; exact stage_sameConfigs s _
  | cfgBuild => exact absurd rfl hbuild
  | devNew => exact absurd rfl hnew
  | devInit => exact execDevInit_sameConfigs h
  | devReadxyz => exact execDevReadxyz_sameConfigs h
  | devDrop => exact absurd rfl hdrop
  | convRaw p0 p1 p2 p3 p4 p5 => cases h; exact respond_sameConfigs s _
  | scale x y z => cases h; exact respond_sameConfigs s _

/-! ### The three requests that write a config -/

/-- `CFG_BUILD` replaces the built config as a whole and leaves the device's copy alone. -/
theorem execCfgBuild_configs {s t : State} (h : execCfgBuild s = .next t) :
    t.devCfg = s.devCfg ∧ (t.cfg = none ∨ t.cfg = some ⟨s.stg, pack s.stg⟩) := by
  cases h
  split
  · exact ⟨rfl, .inr rfl⟩
  · exact ⟨rfl, .inl rfl⟩

/-- `DEV_NEW` copies the built config into the device, unless it is refused. -/
theorem execDevNew_configs {s t : State} (h : execDevNew s = .next t) :
    t.cfg = s.cfg ∧ (t.devCfg = s.devCfg ∨ t.devCfg = s.cfg) := by
  cases h
  unfold State.withTransport
  cases s.dev with
  | noDevice =>
    cases hc : s.cfg with
    | none => exact ⟨hc, .inl rfl⟩
    | some c => exact ⟨hc, .inr rfl⟩
  | uninitialized => exact ⟨rfl, .inl rfl⟩
  | ready => exact ⟨rfl, .inl rfl⟩

/-- `DEV_DROP` releases the device's config, unless it is refused. -/
theorem execDevDrop_configs {s t : State} (h : execDevDrop s = .next t) :
    t.cfg = s.cfg ∧ (t.devCfg = s.devCfg ∨ t.devCfg = none) := by
  cases h
  split
  · exact ⟨rfl, .inl rfl⟩
  · exact ⟨rfl, .inr rfl⟩
  · exact ⟨rfl, .inr rfl⟩

/-- Settles O42: a request that is not one of the three writers keeps both configs, and each writer does what its own
lemma says. -/
theorem configsAreCopiesAndImmutable : Obligations.ConfigsAreCopiesAndImmutable := by
  intro i s t h
  by_cases hbuild : i = .cfgBuild
  · subst hbuild
    obtain ⟨hdev, hcfg⟩ := execCfgBuild_configs h
    exact ⟨fun hne => absurd hdev hne, fun _ => ⟨rfl, hcfg⟩⟩
  by_cases hnew : i = .devNew
  · subst hnew
    obtain ⟨hcfg, hdev⟩ := execDevNew_configs h
    exact ⟨fun hne => .inl ⟨rfl, hdev.resolve_left hne⟩, fun hne => absurd hcfg hne⟩
  by_cases hdrop : i = .devDrop
  · subst hdrop
    obtain ⟨hcfg, hdev⟩ := execDevDrop_configs h
    exact ⟨fun hne => .inr ⟨rfl, hdev.resolve_left hne⟩, fun hne => absurd hcfg hne⟩
  · have hsame := exec_sameConfigs h hbuild hnew hdrop
    exact ⟨fun hne => absurd hsame.devCfg hne, fun hne => absurd hsame.cfg hne⟩

end Sys2Proof.Machine
end

section
/-! PROOF. What the simulator behind the bus port does (20_memory.md R62), and the order in which a burst delivers its
registers, framed or by the sequential fallback (R55, 40_transport.md R105). -/

namespace Sys2Proof.Machine

/-! ### One transaction of the simulator -/

/-- A successful write of the simulator reaches the register file. -/
theorem State.simRegsAfter_sim_ok {s : State} (a : Nat) (v : Byte) (ho : s.oracle = .sim) :
    s.simRegsAfter a v (.ok ()) = s.simRegs.write a v := by
  simp [State.simRegsAfter, ho]

/-- Settles O16: each clause is the port operation at the answer the simulator gives, and the register file that a
successful write leaves is `Memory.write`. -/
theorem simulatorAnswersTransactions : Obligations.SimulatorAnswersTransactions := by
  intro s ho hs
  refine ⟨fun e a n hf => ?readFault, fun e a v hf => ?writeFault, fun a n hf => ?readOk, fun a v hf => ?writeOk⟩
  case readFault => exact memRead_of_answer (State.readAnswer_sim_err s a n e ho hs hf)
  case writeFault => exact tWrite_err (State.writeAnswer_sim_err s a v e ho hs hf)
  case readOk =>
    exact ⟨s.simRegs.readBytes a n, Memory.readBytes_toList s.simRegs a n,
      memRead_of_answer (State.readAnswer_sim_ok s a n ho hs hf)⟩
  case writeOk =>
    have hwrite : memWrite a v s = (some (.ok ()), s.afterWrite a v) :=
      tWrite_ok (State.writeAnswer_sim_ok s a v ho hs hf)
    rw [State.afterWrite, State.simRegsAfter_sim_ok a v ho] at hwrite
    exact ⟨s.simRegs.write a v, hwrite, fun b hb => Memory.read_write_other s.simRegs a b v hb.symm,
      fun hwf => ⟨Memory.read_write_same s.simRegs a v hwf, Memory.wf_write s.simRegs a v hwf⟩⟩

/-! ### Bursts of a simulator without faults -/

/-- A simulator whose fault set is empty and whose port always answers delivers the registers it is asked for. -/
theorem State.readAnswer_noFaults {s : State} (a n : Nat) (ho : s.oracle = .sim) (hf : s.simFaults = [])
    (hs : s.silentAt = none) : s.readAnswer a n = some (.ok (s.simRegs.readBytes a n)) :=
  State.readAnswer_sim_ok s a n ho (by simp [State.portSilent, hs]) (by simp [State.simFault, hf])

@[simp] theorem Memory.getElem_readBytes (m : Memory) (a n k : Nat) (hk : k < n) :
    (m.readBytes a n)[k] = m.read (a + k) := by
  have h : (m.readBytes a n).toList[k]'(by simpa using hk) = m.read (a + k) := by simp
  simpa only [Vector.getElem_toList] using h

theorem Memory.readBytes_one (m : Memory) (a : Nat) : m.readBytes a 1 = #v[m.read a] := rfl

@[simp] theorem State.afterReads_simRegs (s : State) (a : Nat) (bs : List Byte) :
    (s.afterReads a bs).simRegs = s.simRegs := rfl

/-- The sequential fallback delivers what one framed read would: no read of it changes a register. -/
theorem seqRead_noFaults {s : State} (a n : Nat) (ho : s.oracle = .sim) (hf : s.simFaults = [])
    (hs : s.silentAt = none) :
    seqRead a n s = (some (.ok (s.simRegs.readBytes a n)), s.afterReads a (s.simRegs.readBytes a n).toList) := by
  refine seqRead_ok s a n _ fun k hk => ?_
  have hanswer := State.readAnswer_noFaults (s := s.afterReads a ((s.simRegs.readBytes a n).toList.take k)) (a + k) 1
    ho hf hs
  rw [hanswer, State.afterReads_simRegs, Memory.readBytes_one, Memory.getElem_readBytes s.simRegs a n k hk]

/-- `TBurst` delivers the same bytes whether or not the bus frames bursts, and changes the trace alone. -/
theorem tBurst_noFaults {s : State} (a n : Nat) (ho : s.oracle = .sim) (hf : s.simFaults = [])
    (hs : s.silentAt = none) :
    ∃ tr : Trace, tBurst a n s = (some (.ok (s.simRegs.readBytes a n)), { s with trace := tr }) := by
  unfold tBurst
  split
  case isTrue => exact ⟨_, memRead_of_answer (State.readAnswer_noFaults a n ho hf hs)⟩
  case isFalse => exact ⟨_, seqRead_noFaults a n ho hf hs⟩

/-- While no device exists the host's transport request runs (40_transport.md R108). -/
theorem State.withTransport_noDevice {s : State} (k : State) (h : s.dev = .noDevice) : s.withTransport k = k := by
  simp [State.withTransport, h]

/-- `RDBURST` with no device, after a burst that delivered `b`. -/
theorem exec_rdburst_ok {s t : State} {addr n : Byte} {b : Vector Byte n.toNat} (hd : s.dev = .noDevice)
    (h : tBurst addr.toNat n.toNat s = (some (.ok b), t)) :
    exec (.rdburst addr n) s = .next (t.respond b.toList) := by
  change execRdburst addr n s = _
  rw [execRdburst, State.withTransport_noDevice _ hd, h, Reply.finish_ok]

/-- Settles O22: `TBurst` delivers `Memory.readBytes` on either bus, whose list of bytes ascends by address. -/
theorem burstBytesAscendEitherWay : Obligations.BurstBytesAscendEitherWay := by
  intro s addr n ho hf hs hd
  obtain ⟨tr, hburst⟩ := tBurst_noFaults addr.toNat n.toNat ho hf hs
  rw [exec_rdburst_ok hd hburst, Memory.readBytes_toList]
  exact ⟨_, rfl⟩

end Sys2Proof.Machine
end

section
/-! PROOF. The decoder and the opcode table (30_encoding.md R85 to R88, R91): the equation of the decoder at every
operation code, what each format accepts, rows of the table read field by field, and the three
statements that follow from them. -/

namespace Sys2Proof

/-! ### The decoder at each operation code -/

section
variable {p : Params} {r : Request}

theorem decode_rdreg (h : r.opc = 0x01) : decode p r = decodeR p r := by rw [decode, h]; rfl
theorem decode_wrreg (h : r.opc = 0x02) : decode p r = decodeW p r := by rw [decode, h]; rfl
theorem decode_rdburst (h : r.opc = 0x03) : decode p r = decodeU p r := by rw [decode, h]; rfl
theorem decode_cfgNew (h : r.opc = 0x10) : decode p r = decodeN r .cfgNew := by rw [decode, h]; rfl
theorem decode_cfgOdr (h : r.opc = 0x11) : decode p r = decodeS r Odr.ofCode .cfgOdr := by rw [decode, h]; rfl
theorem decode_cfgBw (h : r.opc = 0x12) : decode p r = decodeS r Bw.ofCode .cfgBw := by rw [decode, h]; rfl
theorem decode_cfgPmode (h : r.opc = 0x13) : decode p r = decodeS r PMode.ofCode .cfgPmode := by rw [decode, h]; rfl
theorem decode_cfgHpf (h : r.opc = 0x14) : decode p r = decodeS r enableOfCode .cfgHpf := by rw [decode, h]; rfl
theorem decode_cfgLpf (h : r.opc = 0x15) : decode p r = decodeS r enableOfCode .cfgLpf := by rw [decode, h]; rfl
theorem decode_cfgBuild (h : r.opc = 0x16) : decode p r = decodeN r .cfgBuild := by rw [decode, h]; rfl
theorem decode_devNew (h : r.opc = 0x20) : decode p r = decodeN r .devNew := by rw [decode, h]; rfl
theorem decode_devInit (h : r.opc = 0x21) : decode p r = decodeN r .devInit := by rw [decode, h]; rfl
theorem decode_devReadxyz (h : r.opc = 0x22) : decode p r = decodeN r .devReadxyz := by rw [decode, h]; rfl
theorem decode_devDrop (h : r.opc = 0x23) : decode p r = decodeN r .devDrop := by rw [decode, h]; rfl
theorem decode_convRaw (h : r.opc = 0x30) : decode p r = decodeP r .convRaw := by rw [decode, h]; rfl
theorem decode_scale (h : r.opc = 0x31) : decode p r = decodeP r fun p0 p1 p2 p3 p4 p5 =>
    .scale (joinHighFirst p0 p1) (joinHighFirst p2 p3) (joinHighFirst p4 p5) := by rw [decode, h]; rfl

end

/-! ### What each format accepts: the converses of `decodeN_ok` to `decodeP_ok` -/

section
variable {p : Params} {r : Request}

theorem decodeN_eq_ok (i : Instr) (ha : r.a = 0) (hb : r.b = 0) (hc : r.c = 0) (hp : r.payload = []) :
    decodeN r i = .ok i := by
  simp [decodeN, noPayload, ha, hb, hc, hp]

theorem decodeS_eq_ok {α : Type} {f : Byte → Option α} {v : α} (i : α → Instr) (ha : f r.a = some v) (hb : r.b = 0)
    (hc : r.c = 0) (hp : r.payload = []) : decodeS r f i = .ok (i v) := by
  simp [decodeS, noPayload, ha, hb, hc, hp]

theorem decodeR_eq_ok (ha : addrFits p r.a = true) (hb : r.b = 0) (hc : r.c = 0) (hp : r.payload = []) :
    decodeR p r = .ok (.rdreg r.a) := by
  simp [decodeR, noPayload, ha, hb, hc, hp]

theorem decodeW_eq_ok (ha : addrFits p r.a = true) (hc : r.c = 0) (hp : r.payload = []) :
    decodeW p r = .ok (.wrreg r.a r.b) := by
  simp [decodeW, noPayload, ha, hc, hp]

theorem decodeU_eq_ok (ha : addrFits p r.a = true) (hn : burstNonempty r.b = true) (hf : burstFits p r.a r.b = true)
    (hc : r.c = 0) (hp : r.payload = []) : decodeU p r = .ok (.rdburst r.a r.b) := by
  simp [decodeU, noPayload, ha, hn, hf, hc, hp]

theorem decodeP_eq_ok {p0 p1 p2 p3 p4 p5 : Byte} (i : Byte → Byte → Byte → Byte → Byte → Byte → Instr) (ha : r.a = 0)
    (hb : r.b = 0) (hc : r.c = 0) (hp : r.payload = [p0, p1, p2, p3, p4, p5]) :
    decodeP r i = .ok (i p0 p1 p2 p3 p4 p5) := by
  simp [decodeP, ha, hb, hc, hp]

end

/-! ### Masked words, field by field -/

theorem mkWord_and (o a b c o' a' b' c' : Byte) :
    mkWord o a b c &&& mkWord o' a' b' c' = mkWord (o &&& o') (a &&& a') (b &&& b') (c &&& c') := by
  change (o ++ a ++ b ++ c) &&& (o' ++ a' ++ b' ++ c') = (o &&& o') ++ (a &&& a') ++ (b &&& b') ++ (c &&& c')
  simp only [BitVec.and_append]

theorem mkWord_inj {o a b c o' a' b' c' : Byte} :
    mkWord o a b c = mkWord o' a' b' c' ↔ o = o' ∧ a = a' ∧ b = b' ∧ c = c' := by
  constructor
  · intro h
    have hr : (Request.mk (mkWord o a b c) []) = ⟨mkWord o' a' b' c', []⟩ := by rw [h]
    refine ⟨?_, ?_, ?_, ?_⟩
    · simpa using congrArg Request.opc hr
    · simpa using congrArg Request.a hr
    · simpa using congrArg Request.b hr
    · simpa using congrArg Request.c hr
  · rintro ⟨rfl, rfl, rfl, rfl⟩
    rfl

theorem byte_and_ff (x : Byte) : x &&& 0xFF = x := BitVec.and_allOnes

/-- `word & mask = match`, as the same comparison of each field (30_encoding.md R80). -/
theorem Request.word_and_eq_iff (r : Request) (mo ma mb mc po pa pb pc : Byte) :
    r.word &&& mkWord mo ma mb mc = mkWord po pa pb pc ↔
      r.opc &&& mo = po ∧ r.a &&& ma = pa ∧ r.b &&& mb = pb ∧ r.c &&& mc = pc := by
  have hword : r.word = mkWord r.opc r.a r.b r.c := (mkWord_eq_fields r.word).symm
  rw [hword, mkWord_and, mkWord_inj]

/-! ### Rows of the table -/

/-- The operation code that a row's match asks for. -/
def OpcodeRow.opc (row : OpcodeRow) : Byte := row.pattern.extractLsb' 24 8

theorem OpcodeRow.matches_iff (row : OpcodeRow) (r : Request) :
    row.matches r = true ↔
      r.word &&& row.mask = row.pattern ∧ row.extra.holds r = true ∧ r.payload.length = row.payloadLen := by
  simp [OpcodeRow.matches, and_assoc]

/-- Every mask of the table covers the whole `OPC` field. -/
theorem opcodeTable_masks_opc : ∀ row ∈ opcodeTable, row.mask.extractLsb' 24 8 = 0xFF := by decide

theorem OpcodeRow.opc_of_matches {row : OpcodeRow} {r : Request} (hrow : row ∈ opcodeTable)
    (h : row.matches r = true) : r.opc = row.opc := by
  obtain ⟨hword, -, -⟩ := (row.matches_iff r).mp h
  calc r.opc = r.opc &&& row.mask.extractLsb' 24 8 := by
        rw [opcodeTable_masks_opc row hrow]; exact (byte_and_ff r.opc).symm
    _ = (r.word &&& row.mask).extractLsb' 24 8 := BitVec.extractLsb'_and.symm
    _ = row.opc := by rw [hword, OpcodeRow.opc]

/-- A row whose match has zero operand fields, at a request of its operation code: the masked operand fields are 0. -/
theorem OpcodeRow.matches_iff_fields {row : OpcodeRow} {r : Request} {opc ma mb mc : Byte} (hopc : r.opc = opc)
    (hpat : row.pattern = mkWord opc 0 0 0) (hmask : row.mask = mkWord 0xFF ma mb mc) :
    row.matches r = true ↔ (r.a &&& ma = 0 ∧ r.b &&& mb = 0 ∧ r.c &&& mc = 0) ∧
      row.extra.holds r = true ∧ r.payload.length = row.payloadLen := by
  rw [OpcodeRow.matches_iff, hpat, hmask, Request.word_and_eq_iff, hopc, byte_and_ff]
  simp only [true_and]

/-- A request of an operation code that no row has is rejected. -/
theorem decode_unlisted {p : Params} {r : Request}
    (h : r.opc.toNat ∉ opcodeTable.map fun row => row.opc.toNat) : decode p r = .error .unknownOpcode := by
  have hcodes : (opcodeTable.map fun row => row.opc.toNat) =
      [0x01, 0x02, 0x03, 0x10, 0x11, 0x12, 0x13, 0x14, 0x15, 0x16, 0x20, 0x21, 0x22, 0x23, 0x30, 0x31] := by decide
  rw [hcodes] at h
  unfold decode
  split <;> simp_all

theorem exists_row_of_decode_ok {p : Params} {r : Request} {i : Instr} (h : decode p r = .ok i) :
    ∃ row ∈ opcodeTable, r.opc = row.opc := by
  by_cases hmem : r.opc.toNat ∈ opcodeTable.map fun row => row.opc.toNat
  · obtain ⟨row, hrow, he⟩ := List.mem_map.mp hmem
    exact ⟨row, hrow, BitVec.eq_of_toNat_eq he.symm⟩
  · rw [decode_unlisted hmem] at h
    cases h

/-! ### The constraints of a row and the checks of a format -/

theorem addrFits_decided (v : Variant) (a : Byte) : addrFits (Params.decided v) a = true ↔ a &&& 0x80 = 0 := by
  cases v <;> (revert a; decide)

theorem RowExtra.burst_holds (v : Variant) (r : Request) :
    RowExtra.burst.holds r = true ↔ burstNonempty r.b = true ∧ burstFits (Params.decided v) r.a r.b = true :=
  Bool.and_eq_true_iff

theorem RowExtra.codeAtMost_holds (r : Request) (limit : Nat) :
    (RowExtra.codeAtMost limit).holds r = true ↔ r.a.toNat ≤ limit := decide_eq_true_iff

theorem RowExtra.nothing_holds (r : Request) : RowExtra.nothing.holds r = true ↔ True := iff_true_intro rfl

theorem Odr.ofCode_isSome (r : Request) :
    (Odr.ofCode r.a).isSome = true ↔ r.a &&& 0xF8 = 0 ∧ (RowExtra.codeAtMost 4).holds r = true := by
  rw [RowExtra.codeAtMost_holds]
  generalize r.a = a
  revert a; decide

theorem Bw.ofCode_isSome (r : Request) :
    (Bw.ofCode r.a).isSome = true ↔ r.a &&& 0xF8 = 0 ∧ (RowExtra.codeAtMost 4).holds r = true := by
  rw [RowExtra.codeAtMost_holds]
  generalize r.a = a
  revert a; decide

theorem PMode.ofCode_isSome (r : Request) :
    (PMode.ofCode r.a).isSome = true ↔ r.a &&& 0xFC = 0 ∧ RowExtra.nothing.holds r = true := by
  rw [RowExtra.nothing_holds]
  generalize r.a = a
  revert a; decide

theorem enableOfCode_isSome (r : Request) :
    (enableOfCode r.a).isSome = true ↔ r.a &&& 0xFE = 0 ∧ RowExtra.nothing.holds r = true := by
  rw [RowExtra.nothing_holds]
  generalize r.a = a
  revert a; decide

theorem exists_of_length_six (l : List Byte) (h : l.length = 6) :
    ∃ p0 p1 p2 p3 p4 p5, l = [p0, p1, p2, p3, p4, p5] := by
  match l, h with
  | [p0, p1, p2, p3, p4, p5], _ => exact ⟨p0, p1, p2, p3, p4, p5, rfl⟩

/-! ### A row against the decoder, by format -/

/-- At the request `r` the decoder follows the row: it accepts no request but one that matches the row, under the row's
mnemonic, and every request that matches. -/
structure OpcodeRow.Agrees (p : Params) (r : Request) (row : OpcodeRow) : Prop where
  sound : ∀ i, decode p r = .ok i → i.mnemonic = row.mnemonic ∧ row.matches r = true
  complete : row.matches r = true → ∃ i, decode p r = .ok i

section
variable {v : Variant} {p : Params} {r : Request} {opc : Byte}

/-- Format N: the mask covers every field. -/
theorem agrees_formatN {i : Instr} (hopc : r.opc = opc) (hdec : decode p r = decodeN r i) :
    OpcodeRow.Agrees p r ⟨i.mnemonic, mkWord opc 0 0 0, mkWord 0xFF 0xFF 0xFF 0xFF, 0, .nothing⟩ where
  sound j hj := by
    obtain ⟨ha, hb, hc, hp, rfl⟩ := decodeN_ok (hdec ▸ hj)
    exact ⟨rfl, (OpcodeRow.matches_iff_fields hopc rfl rfl).mpr (by simp [ha, hb, hc, hp, RowExtra.holds])⟩
  complete h := by
    obtain ⟨⟨ha, hb, hc⟩, -, hp⟩ := (OpcodeRow.matches_iff_fields hopc rfl rfl).mp h
    rw [byte_and_ff] at ha hb hc
    exact ⟨i, hdec.trans (decodeN_eq_ok i ha hb hc (List.eq_nil_of_length_eq_zero hp))⟩

/-- Format S: the mask leaves the code free, and the row's bits of `A` and its further constraint ask for a listed code. -/
theorem agrees_formatS {α : Type} {f : Byte → Option α} {i : α → Instr} {name : String} {mask : Byte} {extra : RowExtra}
    (hopc : r.opc = opc) (hdec : decode p r = decodeS r f i) (hname : ∀ v, (i v).mnemonic = name)
    (hcode : (f r.a).isSome = true ↔ r.a &&& mask = 0 ∧ extra.holds r = true) :
    OpcodeRow.Agrees p r ⟨name, mkWord opc 0 0 0, mkWord 0xFF mask 0xFF 0xFF, 0, extra⟩ where
  sound j hj := by
    obtain ⟨hb, hc, hp, v, hv, rfl⟩ := decodeS_ok (hdec ▸ hj)
    obtain ⟨ha, hx⟩ := hcode.mp (Option.isSome_of_eq_some hv)
    exact ⟨hname v, (OpcodeRow.matches_iff_fields hopc rfl rfl).mpr (by simp [ha, hb, hc, hp, hx])⟩
  complete h := by
    obtain ⟨⟨ha, hb, hc⟩, hx, hp⟩ := (OpcodeRow.matches_iff_fields hopc rfl rfl).mp h
    obtain ⟨v, hv⟩ := Option.isSome_iff_exists.mp (hcode.mpr ⟨ha, hx⟩)
    rw [byte_and_ff] at hb hc
    exact ⟨i v, hdec.trans (decodeS_eq_ok i hv hb hc (List.eq_nil_of_length_eq_zero hp))⟩

/-- Format P: the mask covers every field, and six bytes follow. -/
theorem agrees_formatP {i : Byte → Byte → Byte → Byte → Byte → Byte → Instr} {name : String} (hopc : r.opc = opc)
    (hdec : decode p r = decodeP r i) (hname : ∀ p0 p1 p2 p3 p4 p5, (i p0 p1 p2 p3 p4 p5).mnemonic = name) :
    OpcodeRow.Agrees p r ⟨name, mkWord opc 0 0 0, mkWord 0xFF 0xFF 0xFF 0xFF, 6, .nothing⟩ where
  sound j hj := by
    obtain ⟨ha, hb, hc, p0, p1, p2, p3, p4, p5, hp, rfl⟩ := decodeP_ok (hdec ▸ hj)
    exact ⟨hname .., (OpcodeRow.matches_iff_fields hopc rfl rfl).mpr (by simp [ha, hb, hc, hp, RowExtra.holds])⟩
  complete h := by
    obtain ⟨⟨ha, hb, hc⟩, -, hlen⟩ := (OpcodeRow.matches_iff_fields hopc rfl rfl).mp h
    obtain ⟨p0, p1, p2, p3, p4, p5, hp⟩ := exists_of_length_six r.payload hlen
    rw [byte_and_ff] at ha hb hc
    exact ⟨_, hdec.trans (decodeP_eq_ok i ha hb hc hp)⟩

/-- Format R, `RDREG`: the mask leaves the seven address bits free. -/
theorem agrees_rdreg (hopc : r.opc = 0x01) : OpcodeRow.Agrees (Params.decided v) r
    ⟨"RDREG", mkWord 0x01 0 0 0, mkWord 0xFF 0x80 0xFF 0xFF, 0, .nothing⟩ where
  sound j hj := by
    obtain ⟨hb, hc, hp, ha, rfl⟩ := decodeR_ok (decode_rdreg hopc ▸ hj)
    rw [addrFits_decided] at ha
    exact ⟨rfl, (OpcodeRow.matches_iff_fields hopc rfl rfl).mpr ⟨⟨ha, by simp [hb], by simp [hc]⟩, rfl, by simp [hp]⟩⟩
  complete h := by
    obtain ⟨⟨ha, hb, hc⟩, -, hp⟩ := (OpcodeRow.matches_iff_fields hopc rfl rfl).mp h
    rw [byte_and_ff] at hb hc
    exact ⟨_, (decode_rdreg hopc).trans
      (decodeR_eq_ok ((addrFits_decided v _).mpr ha) hb hc (List.eq_nil_of_length_eq_zero hp))⟩

/-- Format W, `WRREG`: the mask leaves the seven address bits and the data byte free. -/
theorem agrees_wrreg (hopc : r.opc = 0x02) : OpcodeRow.Agrees (Params.decided v) r
    ⟨"WRREG", mkWord 0x02 0 0 0, mkWord 0xFF 0x80 0 0xFF, 0, .nothing⟩ where
  sound j hj := by
    obtain ⟨hc, hp, ha, rfl⟩ := decodeW_ok (decode_wrreg hopc ▸ hj)
    rw [addrFits_decided] at ha
    exact ⟨rfl, (OpcodeRow.matches_iff_fields hopc rfl rfl).mpr ⟨⟨ha, by simp, by simp [hc]⟩, rfl, by simp [hp]⟩⟩
  complete h := by
    obtain ⟨⟨ha, -, hc⟩, -, hp⟩ := (OpcodeRow.matches_iff_fields hopc rfl rfl).mp h
    rw [byte_and_ff] at hc
    exact ⟨_, (decode_wrreg hopc).trans
      (decodeW_eq_ok ((addrFits_decided v _).mpr ha) hc (List.eq_nil_of_length_eq_zero hp))⟩

/-- Format U, `RDBURST`: the mask leaves the seven address bits and the count free, and the burst stays inside the
register space. -/
theorem agrees_rdburst (hopc : r.opc = 0x03) : OpcodeRow.Agrees (Params.decided v) r
    ⟨"RDBURST", mkWord 0x03 0 0 0, mkWord 0xFF 0x80 0 0xFF, 0, .burst⟩ where
  sound j hj := by
    obtain ⟨hc, hp, ha, hn, hf, rfl⟩ := decodeU_ok (decode_rdburst hopc ▸ hj)
    rw [addrFits_decided] at ha
    have hx := (RowExtra.burst_holds v r).mpr ⟨hn, hf⟩
    exact ⟨rfl, (OpcodeRow.matches_iff_fields hopc rfl rfl).mpr ⟨⟨ha, by simp, by simp [hc]⟩, hx, by simp [hp]⟩⟩
  complete h := by
    obtain ⟨⟨ha, -, hc⟩, hx, hp⟩ := (OpcodeRow.matches_iff_fields hopc rfl rfl).mp h
    obtain ⟨hn, hf⟩ := (RowExtra.burst_holds v r).mp hx
    rw [byte_and_ff] at hc
    exact ⟨_, (decode_rdburst hopc).trans
      (decodeU_eq_ok ((addrFits_decided v _).mpr ha) hn hf hc (List.eq_nil_of_length_eq_zero hp))⟩

end

/-- Every row agrees with the decoder at the requests of its operation code. -/
theorem OpcodeRow.agrees (v : Variant) {r : Request} {row : OpcodeRow} (hrow : row ∈ opcodeTable)
    (hopc : r.opc = row.opc) : row.Agrees (Params.decided v) r := by
  simp only [opcodeTable, List.mem_cons, List.not_mem_nil, or_false] at hrow
  rcases hrow with rfl | rfl | rfl | rfl | rfl | rfl | rfl | rfl | rfl | rfl | rfl | rfl | rfl | rfl | rfl | rfl
  · exact agrees_rdreg hopc
  · exact agrees_wrreg hopc
  · exact agrees_rdburst hopc
  · exact agrees_formatN hopc (decode_cfgNew hopc)
  · exact agrees_formatS hopc (decode_cfgOdr hopc) (fun _ => rfl) (Odr.ofCode_isSome r)
  · exact agrees_formatS hopc (decode_cfgBw hopc) (fun _ => rfl) (Bw.ofCode_isSome r)
  · exact agrees_formatS hopc (decode_cfgPmode hopc) (fun _ => rfl) (PMode.ofCode_isSome r)
  · exact agrees_formatS hopc (decode_cfgHpf hopc) (fun _ => rfl) (enableOfCode_isSome r)
  · exact agrees_formatS hopc (decode_cfgLpf hopc) (fun _ => rfl) (enableOfCode_isSome r)
  · exact agrees_formatN hopc (decode_cfgBuild hopc)
  · exact agrees_formatN hopc (decode_devNew hopc)
  · exact agrees_formatN hopc (decode_devInit hopc)
  · exact agrees_formatN hopc (decode_devReadxyz hopc)
  · exact agrees_formatN hopc (decode_devDrop hopc)
  · exact agrees_formatP hopc (decode_convRaw hopc) fun _ _ _ _ _ _ => rfl
  · exact agrees_formatP hopc (decode_scale hopc) fun _ _ _ _ _ _ => rfl

/-- Settles O11: what decodes has the operation code of some row, what matches a row has that row's, and each row agrees
with the decoder there. -/
theorem decoderFollowsTheOpcodeTable : Obligations.DecoderFollowsTheOpcodeTable := by
  intro v r m
  constructor
  · rintro ⟨i, hi, rfl⟩
    obtain ⟨row, hrow, hopc⟩ := exists_row_of_decode_ok hi
    obtain ⟨hname, hmatch⟩ := (OpcodeRow.agrees v hrow hopc).sound i hi
    exact ⟨row, hrow, hname.symm, hmatch⟩
  · rintro ⟨row, hrow, rfl, hmatch⟩
    have hagrees := OpcodeRow.agrees v hrow (OpcodeRow.opc_of_matches hrow hmatch)
    obtain ⟨i, hi⟩ := hagrees.complete hmatch
    exact ⟨i, hi, (hagrees.sound i hi).1⟩

/-! ### The pseudo-requests -/

/-- Any end of `DEV_READXYZ` but an `OK` has no second request. -/
theorem Asm.readScaledNext_eq_none {o : ReqOutcome} (h : ∀ d, o ≠ .responded (.ok d)) :
    Asm.readScaledNext o = none := by
  cases o with
  | pending => rfl
  | responded x =>
    cases x with
    | ok d => exact absurd rfl (h d)
    | busError e => rfl
    | identityMismatch => rfl
    | invalidConfig => rfl
    | notReady => rfl
  | refusedFor why => rfl
  | stuckOn w => rfl

@[simp] theorem Request.opc_plain (o a b : Byte) : (plain o a b).opc = o := Request.opc_mkWord ..

/-- A word of format N, as the encoder writes it. -/
theorem decodeN_plain (o : Byte) (i : Instr) : decodeN (plain o 0 0) i = .ok i :=
  decodeN_eq_ok i (Request.a_mkWord ..) (Request.b_mkWord ..) (Request.c_mkWord ..) rfl

/-- A word of format S, as the encoder writes it, of a listed code. -/
theorem decodeS_plain {α : Type} {f : Byte → Option α} {c : Byte} {v : α} (o : Byte) (i : α → Instr)
    (h : f c = some v) : decodeS (plain o c 0) f i = .ok (i v) :=
  decodeS_eq_ok i ((congrArg f (Request.a_mkWord ..)).trans h) (Request.b_mkWord ..) (Request.c_mkWord ..) rfl

/-- The requests of `CONFIG`, decoded one by one. -/
theorem decode_configExpansion (p : Params) (o : Odr) (b : Bw) (m : PMode) (h l : Bool) :
    (Asm.configExpansion o.code b.code m.code (enableCode h) (enableCode l)).map (decode p) =
      [.ok .cfgNew, .ok (.cfgOdr o), .ok (.cfgBw b), .ok (.cfgPmode m), .ok (.cfgHpf h), .ok (.cfgLpf l),
       .ok .cfgBuild] := by
  have hnew : decode p (plain 0x10 0 0) = .ok .cfgNew :=
    (decode_cfgNew (Request.opc_plain ..)).trans (decodeN_plain ..)
  have hodr : decode p (plain 0x11 o.code 0) = .ok (.cfgOdr o) :=
    (decode_cfgOdr (Request.opc_plain ..)).trans (decodeS_plain _ _ (Odr.ofCode_code o))
  have hbw : decode p (plain 0x12 b.code 0) = .ok (.cfgBw b) :=
    (decode_cfgBw (Request.opc_plain ..)).trans (decodeS_plain _ _ (Bw.ofCode_code b))
  have hmode : decode p (plain 0x13 m.code 0) = .ok (.cfgPmode m) :=
    (decode_cfgPmode (Request.opc_plain ..)).trans (decodeS_plain _ _ (PMode.ofCode_code m))
  have hhpf : decode p (plain 0x14 (enableCode h) 0) = .ok (.cfgHpf h) :=
    (decode_cfgHpf (Request.opc_plain ..)).trans (decodeS_plain _ _ (enableOfCode_code h))
  have hlpf : decode p (plain 0x15 (enableCode l) 0) = .ok (.cfgLpf l) :=
    (decode_cfgLpf (Request.opc_plain ..)).trans (decodeS_plain _ _ (enableOfCode_code l))
  have hbuild : decode p (plain 0x16 0 0) = .ok .cfgBuild :=
    (decode_cfgBuild (Request.opc_plain ..)).trans (decodeN_plain ..)
  simp only [Asm.configExpansion, List.map, hnew, hodr, hbw, hmode, hhpf, hlpf, hbuild]

theorem decode_readScaledFirst (p : Params) : decode p Asm.readScaledFirst = .ok .devReadxyz :=
  (decode_devReadxyz (Request.opc_plain ..)).trans (decodeN_plain ..)

end Sys2Proof

namespace Sys2Proof.Machine

/-- The bytes of a sample as the payload of `SCALE` stand for that sample (30_encoding.md R84 and R89). -/
theorem decode_scale_of_sample (p : Params) (x : Sample) :
    decode p ⟨mkWord 0x31 0 0 0, x.bytes⟩ = .ok (.scale x.x x.y x.z) := by
  have hbytes : x.bytes = [hiByte x.x, loByte x.x, hiByte x.y, loByte x.y, hiByte x.z, loByte x.z] := rfl
  rw [hbytes, decode_scale (Request.opc_mkWord ..),
    decodeP_eq_ok _ (Request.a_mkWord ..) (Request.b_mkWord ..) (Request.c_mkWord ..) rfl]
  simp only [joinHighFirst_bytes]

/-- A request whose last step responds with `f` of what an operation delivered: an `OK` carries such data, since a silent
port leaves the request waiting and a failed transaction ends it with `BUS_ERROR`. -/
theorem finish_respond_ok {α : Type} {P : Event → Prop} {n : Nat} {s : State} {r : Reply α} {f : α → List Byte}
    {d : List Byte} (hran : Reply.Ran P n s r)
    (h : (r.finish fun a u => u.respond (f a)).outcome = .responded (.ok d)) : ∃ a, d = f a := by
  obtain ⟨x, u⟩ := r
  rcases x with _ | (a | e)
  case none =>
    obtain ⟨_, -, -, -, w, hw, -⟩ := hran
    exact absurd (hw.symm.trans h) (by simp)
  case some.ok => exact ⟨a, by simpa using h.symm⟩
  case some.err => simp [ErrorKind.response] at h

/-- The data of an `OK` of `DEV_READXYZ` are the six bytes of a sample (42_device.md R162). -/
theorem exec_devReadxyz_ok {s t : State} {d : List Byte} (h : exec .devReadxyz s = .next t)
    (hd : t.outcome = .responded (.ok d)) : ∃ x : Sample, d = x.bytes := by
  cases h
  split at hd
  · simp at hd
  · simp [ErrorKind.response] at hd
  · have hran : Reply.Ran (fun _ => True) 6 s (tBurst s.params.dataStart 6 s) :=
      tBurst_ran (by omega) (fun _ => trivial) fun _ _ _ => trivial
    obtain ⟨b, hb⟩ := finish_respond_ok hran hd
    exact ⟨convert s.params b, hb⟩

/-- Settles O14: the expansions are words of known fields, and the data of an `OK` of `DEV_READXYZ` are a sample's bytes,
which are `SCALE`'s payload for that sample. -/
theorem pseudoRequestsExpand : Obligations.PseudoRequestsExpand := by
  refine ⟨decode_configExpansion, decode_readScaledFirst, fun s t h => ⟨fun d hd => ?_, Asm.readScaledNext_eq_none⟩⟩
  obtain ⟨x, rfl⟩ := exec_devReadxyz_ok h hd
  have hword : mkWord 0x31 0 0 0 = 0x31000000 := by decide
  refine ⟨?_, rfl, x, rfl, fun p => ?_⟩
  · rw [hd, ← hword]; rfl
  · rw [← hword]; exact decode_scale_of_sample p x

/-! ### Status codes -/

theorem statusCode_le_four (x : Response) : (statusCode x).toNat ≤ 4 := by
  cases x <;> simp [statusCode]

/-- Settles O57: each response is a case of `statusCode`, `statusData` and `statusFault`. -/
theorem statusCodesAreTheListedOnes : Obligations.StatusCodesAreTheListedOnes :=
  ⟨fun _ => ⟨rfl, rfl, rfl⟩, fun _ => ⟨rfl, rfl⟩, ⟨rfl, rfl, rfl⟩, ⟨rfl, rfl, rfl⟩, ⟨rfl, rfl, rfl⟩,
    statusCode_le_four⟩

end Sys2Proof.Machine
end

section
/-! PROOF. The transport primitives and the host transport requests `RDREG`, `WRREG` and `RDBURST` (40_transport.md R100
to R105, R108): what the decoder makes of their words, that a device shuts them out, and how each ends by the answer of
its transaction. -/

namespace Sys2Proof

/-! ### The words of the transport requests -/

theorem addrFits_iff (p : Params) (a : Byte) : addrFits p a = true ↔ a.toNat < p.space := decide_eq_true_iff

theorem burstNonempty_iff (n : Byte) : burstNonempty n = true ↔ 1 ≤ n.toNat := decide_eq_true_iff

theorem burstFits_iff (p : Params) (a n : Byte) : burstFits p a n = true ↔ a.toNat + n.toNat ≤ p.space :=
  decide_eq_true_iff

@[simp] theorem Request.a_plain (o a b : Byte) : (plain o a b).a = a := Request.a_mkWord ..
@[simp] theorem Request.b_plain (o a b : Byte) : (plain o a b).b = b := Request.b_mkWord ..
@[simp] theorem Request.c_plain (o a b : Byte) : (plain o a b).c = 0 := Request.c_mkWord ..

section
variable {p : Params}

theorem decode_plain_rdreg {addr : Byte} (h : addr.toNat < p.space) :
    decode p (plain 0x01 addr 0) = .ok (.rdreg addr) := by
  rw [decode_rdreg (Request.opc_plain ..),
    decodeR_eq_ok (by simpa [addrFits_iff] using h) (Request.b_plain ..) (Request.c_plain ..) rfl, Request.a_plain]

theorem decode_plain_rdreg_tooWide {addr : Byte} (h : p.space ≤ addr.toNat) :
    decode p (plain 0x01 addr 0) = .error .addressTooWide := by
  have hwide : addrFits p addr = false := by simpa [addrFits] using h
  rw [decode_rdreg (Request.opc_plain ..)]
  simp [decodeR, hwide]

theorem decode_plain_wrreg {addr : Byte} (data : Byte) (h : addr.toNat < p.space) :
    decode p (plain 0x02 addr data) = .ok (.wrreg addr data) := by
  rw [decode_wrreg (Request.opc_plain ..),
    decodeW_eq_ok (by simpa [addrFits_iff] using h) (Request.c_plain ..) rfl, Request.a_plain, Request.b_plain]

/-- A burst of at least one register inside the register space: the last clause bounds the first address too. -/
theorem decode_plain_rdburst {addr n : Byte} (hn : 1 ≤ n.toNat) (hfit : addr.toNat + n.toNat ≤ p.space) :
    decode p (plain 0x03 addr n) = .ok (.rdburst addr n) := by
  have haddr : addr.toNat < p.space := by omega
  rw [decode_rdburst (Request.opc_plain ..),
    decodeU_eq_ok (by simpa [addrFits_iff] using haddr) (by simpa [burstNonempty_iff] using hn)
      (by simpa [burstFits_iff] using hfit) (Request.c_plain ..) rfl, Request.a_plain, Request.b_plain]

/-- An empty burst, or one past the top, has no request: any the decoder accepted would satisfy both bounds. -/
theorem decode_plain_rdburst_reserved {addr n : Byte} (h : n = 0 ∨ p.space < addr.toNat + n.toNat) :
    ∃ why, decode p (plain 0x03 addr n) = .error why := by
  rw [decode_rdburst (Request.opc_plain ..)]
  cases hdec : decodeU p (plain 0x03 addr n) with
  | error why => exact ⟨why, rfl⟩
  | ok j =>
    obtain ⟨-, -, -, hn, hfit, -⟩ := decodeU_ok hdec
    rw [Request.b_plain, burstNonempty_iff] at hn
    rw [Request.a_plain, Request.b_plain, burstFits_iff] at hfit
    rcases h with rfl | hpast
    · exact absurd hn (by decide)
    · omega

end

end Sys2Proof

namespace Sys2Proof.Machine

/-! ### The transport primitives -/

/-- Settles O15: each clause is the primitive at the answer its one transaction gets. -/
theorem transportPrimitivesAreOneTransaction : Obligations.TransportPrimitivesAreOneTransaction :=
  ⟨fun _ _ _ => tRead_ok, fun _ _ _ => tRead_err, fun _ _ _ => tWrite_ok, fun _ _ _ _ => tWrite_err⟩

section
variable {s : State} {a n : Nat}

theorem tBurst_framed (h : s.params.framed = true) : tBurst a n s = memRead a n s := by simp [tBurst, h]

theorem tBurst_unframed (h : s.params.framed = false) : tBurst a n s = seqRead a n s := by simp [tBurst, h]

/-- The fallback when every read succeeds, with the bytes as a list. -/
theorem seqRead_ok_list {bs : List Byte} (hl : bs.length = n)
    (h : ∀ (k : Nat) (hk : k < bs.length),
      (s.afterReads a (bs.take k)).readAnswer (a + k) 1 = some (.ok #v[bs[k]])) :
    ∃ b : Vector Byte n, b.toList = bs ∧ seqRead a n s = (some (.ok b), s.afterReads a bs) := by
  obtain ⟨b, rfl, hget⟩ := exists_vector bs hl
  exact ⟨b, rfl, seqRead_ok s a n b fun k hk => by rw [hget k hk]; exact h k (by omega)⟩

end

/-! ### A device owns the transport -/

section
variable {s : State} (hd : s.dev ≠ .noDevice)
include hd

theorem State.withTransport_owned (k : State) : s.withTransport k = s.refuse .transportOwned := by
  unfold State.withTransport
  cases hdev : s.dev with
  | noDevice => exact absurd hdev hd
  | uninitialized => rfl
  | ready => rfl

theorem exec_rdreg_owned (addr : Byte) : exec (.rdreg addr) s = .next (s.refuse .transportOwned) :=
  congrArg _ (State.withTransport_owned hd _)

theorem exec_wrreg_owned (addr data : Byte) : exec (.wrreg addr data) s = .next (s.refuse .transportOwned) :=
  congrArg _ (State.withTransport_owned hd _)

theorem exec_rdburst_owned (addr n : Byte) : exec (.rdburst addr n) s = .next (s.refuse .transportOwned) :=
  congrArg _ (State.withTransport_owned hd _)

end

/-- Settles O23: with a device, none of the three requests gets as far as its transaction. -/
theorem deviceOwnsTheTransport : Obligations.DeviceOwnsTheTransport := fun _ addr data n hd =>
  ⟨exec_rdreg_owned hd addr, exec_wrreg_owned hd addr data, exec_rdburst_owned hd addr n⟩

/-! ### How a transport request ends without a device -/

section
variable {s t : State} {addr data n : Byte} (hd : s.dev = .noDevice)
include hd

theorem State.withTransport_finish_ok {α : Type} {r : Reply α} {k : α → State → State} {x : α}
    (h : r = (some (.ok x), t)) : s.withTransport (r.finish k) = k x t := by
  rw [State.withTransport_noDevice _ hd, h, Reply.finish_ok]

theorem State.withTransport_finish_err {α : Type} {r : Reply α} {k : α → State → State} {e : BusErr}
    (h : r = (some (.err e), t)) : s.withTransport (r.finish k) = t.raise (.busError e) := by
  rw [State.withTransport_noDevice _ hd, h, Reply.finish_err]

theorem exec_rdreg_ok {b : Byte} (h : tRead addr.toNat s = (some (.ok b), t)) :
    exec (.rdreg addr) s = .next (t.respond [b]) :=
  congrArg _ (State.withTransport_finish_ok hd h)

theorem exec_rdreg_err {e : BusErr} (h : tRead addr.toNat s = (some (.err e), t)) :
    exec (.rdreg addr) s = .next (t.raise (.busError e)) :=
  congrArg _ (State.withTransport_finish_err hd h)

theorem exec_wrreg_ok (h : tWrite addr.toNat data s = (some (.ok ()), t)) :
    exec (.wrreg addr data) s = .next (t.respond []) :=
  congrArg _ (State.withTransport_finish_ok hd h)

theorem exec_wrreg_err {e : BusErr} (h : tWrite addr.toNat data s = (some (.err e), t)) :
    exec (.wrreg addr data) s = .next (t.raise (.busError e)) :=
  congrArg _ (State.withTransport_finish_err hd h)

theorem exec_rdburst_err {e : BusErr} (h : tBurst addr.toNat n.toNat s = (some (.err e), t)) :
    exec (.rdburst addr n) s = .next (t.raise (.busError e)) :=
  congrArg _ (State.withTransport_finish_err hd h)

end

/-- A request that ends right after the event `e`: the trace gains the event and the response. -/
theorem State.record_present (s : State) (e : Event) (r : Response) :
    (s.record e).present r = { s with outcome := .responded r, trace := s.trace ++ [e, .response r] } := by
  simp [State.record, State.present]

/-! ### `RDREG` -/

/-- Settles O19: the word by the decoder of format R, the results by `TRead` at the port's answer. -/
theorem rdregReadsOneRegister : Obligations.RdregReadsOneRegister := by
  intro s addr
  refine ⟨decode_plain_rdreg, decode_plain_rdreg_tooWide, fun hd => exec_rdreg_owned hd addr, fun b hd h => ?ok,
    fun e hd h => ?err⟩
  case ok =>
    rw [exec_rdreg_ok hd (tRead_ok h)]
    exact congrArg _ (State.record_present ..)
  case err =>
    rw [exec_rdreg_err hd (tRead_err h)]
    exact congrArg _ (State.record_present ..)

/-! ### `WRREG` -/

theorem State.afterWrite_eq_record (s : State) (a : Nat) (v : Byte) :
    s.afterWrite a v = (s.setSimRegs (s.simRegsAfter a v (.ok ()))).record (.write a v (.ok ())) := rfl

/-- The free oracle keeps no registers (20_memory.md R60). -/
theorem State.simRegsAfter_free {s : State} (a : Nat) (v : Byte) (x : Answer Unit) (ho : s.oracle = .free) :
    s.simRegsAfter a v x = s.simRegs := by
  simp [State.simRegsAfter, ho]

/-- A successful write of the simulator reads back. -/
theorem State.simRegsAfter_same {s : State} (a : Nat) (v : Byte) (ho : s.oracle = .sim) (hwf : s.simRegs.wf = true) :
    (s.simRegsAfter a v (.ok ())).read a = v := by
  rw [State.simRegsAfter_sim_ok a v ho, Memory.read_write_same _ _ _ hwf]

/-- Settles O20: as O19, with `TWrite`; the register file it leaves is `State.simRegsAfter`. -/
theorem wrregWritesOneRegister : Obligations.WrregWritesOneRegister := by
  intro s addr data
  refine ⟨decode_plain_wrreg data, fun hd => exec_wrreg_owned hd addr data, fun hd h => ?ok, fun e hd h => ?err⟩
  case ok =>
    refine ⟨s.simRegsAfter addr.toNat data (.ok ()), ?_, fun a ha => State.simRegsAfter_other s _ a data _ ha.symm,
      State.simRegsAfter_free _ _ _, State.simRegsAfter_same _ _⟩
    rw [exec_wrreg_ok hd (tWrite_ok h), State.afterWrite_eq_record]
    exact congrArg _ (State.record_present ..)
  case err =>
    rw [exec_wrreg_err hd (tWrite_err h)]
    exact congrArg _ (State.record_present ..)

/-! ### `RDBURST` -/

/-- Settles O21: `TBurst` is one read on a bus that frames bursts and the sequential fallback on one that does not; the
fallback either delivers every byte or stops at the first failure, after the reads that `State.afterReads` records. -/
theorem rdburstReadsContiguousRegisters : Obligations.RdburstReadsContiguousRegisters := by
  intro s addr n
  refine ⟨decode_plain_rdburst, decode_plain_rdburst_reserved, fun hd => exec_rdburst_owned hd addr n,
    fun b hd hf h => ?framedOk, fun e hd hf h => ?framedErr, fun bs hd hf hl h => ?sequentialOk,
    fun bs e hd hf hl h he => ?sequentialErr⟩
  case framedOk =>
    rw [exec_rdburst_ok hd ((tBurst_framed hf).trans (memRead_of_answer h))]
    exact congrArg _ (State.record_present ..)
  case framedErr =>
    rw [exec_rdburst_err hd ((tBurst_framed hf).trans (memRead_of_answer h))]
    exact congrArg _ (State.record_present ..)
  case sequentialOk =>
    obtain ⟨b, rfl, hread⟩ := seqRead_ok_list hl h
    exact exec_rdburst_ok hd ((tBurst_unframed hf).trans hread)
  case sequentialErr =>
    rw [exec_rdburst_err hd ((tBurst_unframed hf).trans (seqRead_fails s _ _ bs e hl h he))]
    exact congrArg _ (State.record_present ..)

end Sys2Proof.Machine
end

section
/-! PROOF. The builder requests (41_config.md R135 to R141): what the decoder makes of their words, the disable bits of
the packed power-control byte, and the next state of each. -/

namespace Sys2Proof

/-! ### The words of the builder requests -/

section
variable {p : Params} {opc : Byte}

/-- An operation code of format N, as the encoder writes its word. -/
theorem decode_plain_formatN {i : Instr} (hdec : ∀ {r : Request}, r.opc = opc → decode p r = decodeN r i) :
    decode p (plain opc 0 0) = .ok i :=
  (hdec (Request.opc_plain ..)).trans (decodeN_plain ..)

variable {α : Type} {f : Byte → Option α} {i : α → Instr} {c : Byte}

/-- An operation code of format S with a listed setting code. -/
theorem decode_plain_formatS {v : α} (hdec : ∀ {r : Request}, r.opc = opc → decode p r = decodeS r f i)
    (hc : f c = some v) : decode p (plain opc c 0) = .ok (i v) :=
  (hdec (Request.opc_plain ..)).trans (decodeS_plain _ _ hc)

/-- An operation code of format S with a reserved setting code. -/
theorem decode_plain_formatS_reserved (hdec : ∀ {r : Request}, r.opc = opc → decode p r = decodeS r f i)
    (hc : f c = none) : decode p (plain opc c 0) = .error .badOperand := by
  rw [hdec (Request.opc_plain ..)]
  simp [decodeS, hc]

end

theorem enableCode_eq_ite (b : Bool) : enableCode b = if b then 1 else 0 := by cases b <;> rfl

/-! ### The disable bits (41_config.md R130) -/

theorem Field.getLsbD_put (f : Field) (v : Byte) (n : Nat) :
    (f.put v).getLsbD n = ((v <<< f.pos.shift).getLsbD n && f.pos.mask.getLsbD n) := BitVec.getLsbD_and

/-- A field leaves every bit outside its mask 0. -/
theorem Field.getLsbD_put_outside {f : Field} {n : Nat} (v : Byte) (h : f.pos.mask.getLsbD n = false) :
    (f.put v).getLsbD n = false := by
  rw [Field.getLsbD_put, h, Bool.and_false]

/-- A field's lowest bit is that of the value put. -/
theorem Field.getLsbD_put_shift (f : Field) (v : Byte) : (f.put v).getLsbD f.pos.shift = v.getLsbD 0 := by
  have hmask : f.pos.mask.getLsbD f.pos.shift = true := by cases f <;> decide
  have hshift : f.pos.shift < 8 := by cases f <;> decide
  rw [Field.getLsbD_put, hmask, Bool.and_true, BitVec.getLsbD_shiftLeft]
  simp [hshift]

theorem disableBit_getLsbD_zero (enabled : Bool) : (disableBit enabled).getLsbD 0 = !enabled := by
  cases enabled <;> rfl

theorem pack_powerCtl_getLsbD (x : Settings) (n : Nat) : (pack x).powerCtl.getLsbD n =
    ((Field.mode.put x.mode.code).getLsbD n || (Field.hpfDisable.put (disableBit x.hpfEn)).getLsbD n ||
      (Field.lpfDisable.put (disableBit x.lpfEn)).getLsbD n) := by
  simp only [pack, BitVec.getLsbD_or]

/-- Bit 2 lies in the mask of `hpfDisable` alone. -/
theorem pack_hpfDisable (x : Settings) : (pack x).powerCtl.getLsbD 2 = !x.hpfEn := by
  have hhpf : (Field.hpfDisable.put (disableBit x.hpfEn)).getLsbD 2 = !x.hpfEn :=
    (Field.getLsbD_put_shift ..).trans (disableBit_getLsbD_zero _)
  rw [pack_powerCtl_getLsbD, Field.getLsbD_put_outside _ (by decide), hhpf, Field.getLsbD_put_outside _ (by decide),
    Bool.false_or, Bool.or_false]

/-- Bit 3 lies in the mask of `lpfDisable` alone. -/
theorem pack_lpfDisable (x : Settings) : (pack x).powerCtl.getLsbD 3 = !x.lpfEn := by
  have hlpf : (Field.lpfDisable.put (disableBit x.lpfEn)).getLsbD 3 = !x.lpfEn :=
    (Field.getLsbD_put_shift ..).trans (disableBit_getLsbD_zero _)
  rw [pack_powerCtl_getLsbD, Field.getLsbD_put_outside _ (by decide), Field.getLsbD_put_outside _ (by decide), hlpf,
    Bool.false_or, Bool.false_or]

/-! ### Legality (41_config.md R133) -/

theorem legal_iff (s : Settings) : legal s = true ↔ s.bw.code.toNat ≤ s.odr.code.toNat := decide_eq_true_iff

theorem legal_eq_false_iff (s : Settings) : legal s = false ↔ s.odr.code.toNat < s.bw.code.toNat := by
  rw [← Bool.not_eq_true, legal_iff, not_le]

end Sys2Proof

namespace Sys2Proof.Machine

/-! ### The setters -/

/-- What a builder setter leaves: the new staging, and `OK` without data as the outcome and last event. -/
theorem State.stage_eq (s : State) (x : Settings) : s.stage x =
    { s with stg := x, outcome := .responded (.ok []), trace := s.trace ++ [.response (.ok [])] } := rfl

theorem exec_cfgNew (s : State) : exec .cfgNew s = .next (s.stage Settings.default) := rfl

theorem exec_cfgOdr (o : Odr) (s : State) : exec (.cfgOdr o) s = .next (s.stage { s.stg with odr := o }) := rfl

theorem exec_cfgBw (b : Bw) (s : State) : exec (.cfgBw b) s = .next (s.stage { s.stg with bw := b }) := rfl

theorem exec_cfgPmode (m : PMode) (s : State) : exec (.cfgPmode m) s = .next (s.stage { s.stg with mode := m }) := rfl

theorem exec_cfgHpf (h : Bool) (s : State) : exec (.cfgHpf h) s = .next (s.stage { s.stg with hpfEn := h }) := rfl

theorem exec_cfgLpf (h : Bool) (s : State) : exec (.cfgLpf h) s = .next (s.stage { s.stg with lpfEn := h }) := rfl

/-- Settles O28: a word of format N, and the setter's next state with the default staging. -/
theorem cfgNewRestoresTheDefaults : Obligations.CfgNewRestoresTheDefaults := by
  have hword : (⟨0x10000000, []⟩ : Request) = plain 0x10 0 0 := by decide
  refine ⟨fun p => ?_, fun s => ?_⟩
  · rw [hword, decode_plain_formatN decode_cfgNew]
  · rw [exec_cfgNew, State.stage_eq, Settings.default]

/-- Settles O29: the decoder of format S at each setting's code table, and the setter's next state. -/
theorem rateBandwidthAndModeSettersWriteTheStaging : Obligations.RateBandwidthAndModeSettersWriteTheStaging := by
  refine ⟨fun p o => ?odr, fun p b => ?bw, fun p m => ?mode, fun p c hc => ⟨?odrReserved, ?bwReserved⟩,
    fun p c hc => ?modeReserved, fun s o => ?execOdr, fun s b => ?execBw, fun s m => ?execMode⟩
  case odr => exact decode_plain_formatS decode_cfgOdr (Odr.ofCode_code o)
  case bw => exact decode_plain_formatS decode_cfgBw (Bw.ofCode_code b)
  case mode => exact decode_plain_formatS decode_cfgPmode (PMode.ofCode_code m)
  case odrReserved => exact decode_plain_formatS_reserved decode_cfgOdr ((Odr.ofCode_none c).mpr hc)
  case bwReserved => exact decode_plain_formatS_reserved decode_cfgBw ((Bw.ofCode_none c).mpr hc)
  case modeReserved => exact decode_plain_formatS_reserved decode_cfgPmode ((PMode.ofCode_none c).mpr hc)
  case execOdr => rw [exec_cfgOdr, State.stage_eq]
  case execBw => rw [exec_cfgBw, State.stage_eq]
  case execMode => rw [exec_cfgPmode, State.stage_eq]

/-- Settles O30: as O29, with the disable bits by the masks of the packed byte's fields. -/
theorem filterSettersWriteTheStaging : Obligations.FilterSettersWriteTheStaging := by
  refine ⟨fun p h => ?listed, fun p c hc => ?reserved, fun s h => ?execHpf, fun s h => ?execLpf,
    fun x => ⟨pack_hpfDisable x, pack_lpfDisable x⟩⟩
  case listed =>
    rw [← enableCode_eq_ite]
    exact ⟨decode_plain_formatS decode_cfgHpf (enableOfCode_code h),
      decode_plain_formatS decode_cfgLpf (enableOfCode_code h)⟩
  case reserved =>
    have hnone : enableOfCode c = none := (enableOfCode_none c).mpr hc
    exact ⟨decode_plain_formatS_reserved decode_cfgHpf hnone, decode_plain_formatS_reserved decode_cfgLpf hnone⟩
  case execHpf => rw [exec_cfgHpf, State.stage_eq]
  case execLpf => rw [exec_cfgLpf, State.stage_eq]

/-! ### `CFG_BUILD` -/

theorem exec_cfgBuild_legal {s : State} (h : legal s.stg = true) :
    exec .cfgBuild s = .next ((s.setCfg (some (build s.stg))).respond (pack s.stg).bytes) :=
  congrArg _ (if_pos h)

theorem exec_cfgBuild_illegal {s : State} (h : legal s.stg = false) :
    exec .cfgBuild s = .next ((s.setCfg none).raise .invalidConfig) :=
  congrArg _ (if_neg (by simp [h]))

/-- A request that writes the built config and then ends. -/
theorem State.setCfg_present (s : State) (c : Option BuiltConfig) (r : Response) : (s.setCfg c).present r =
    { s with cfg := c, outcome := .responded r, trace := s.trace ++ [.response r] } := rfl

/-- Settles O31: a word of format N, and the two exclusive cases of legality. -/
theorem cfgBuildValidatesAndPacks : Obligations.CfgBuildValidatesAndPacks := by
  have hword : (⟨0x16000000, []⟩ : Request) = plain 0x16 0 0 := by decide
  refine ⟨fun p => ?word, fun s h => ?legal, fun s h => ?illegal⟩
  case word => rw [hword, decode_plain_formatN decode_cfgBuild]
  case legal =>
    rw [exec_cfgBuild_legal ((legal_iff s.stg).mpr h)]
    exact congrArg _ (State.setCfg_present ..)
  case illegal =>
    rw [exec_cfgBuild_illegal ((legal_eq_false_iff s.stg).mpr h)]
    exact congrArg _ (State.setCfg_present ..)

end Sys2Proof.Machine
end

section
/-! PROOF. The device requests (42_device.md R150 to R170): that each needs its device (or, for `DEV_NEW`, none), how the
initialisation sequence goes on or ends by the answer of each transaction, and the sample read on either bus. -/

namespace Sys2Proof

/-- The word of a format N request: its operation code above three zero bytes. -/
theorem decode_formatN_word {p : Params} {opc : Byte} {w : Word} {i : Instr}
    (hdec : ∀ {r : Request}, r.opc = opc → decode p r = decodeN r i) (hw : w = mkWord opc 0 0 0) :
    decode p ⟨w, []⟩ = .ok i := by
  subst hw
  exact decode_plain_formatN hdec

end Sys2Proof

namespace Sys2Proof.Machine

/-! ### How a request ends after a failed transaction -/

/-- The event `v` of the failed transaction and its `BUS_ERROR` are the last two events, whatever would have followed. -/
theorem Reply.finish_failed {α : Type} {r : Reply α} {k : α → State → State} {s : State} {v : Event} {e : BusErr}
    (h : r = (some (.err e), s.record v)) : r.finish k =
      { s with outcome := .responded (.busError e), trace := s.trace ++ [v, .response (.busError e)] } := by
  rw [h, Reply.finish_err]
  exact State.record_present ..

/-! ### Without a device -/

section
variable {s : State} (hd : s.dev = .noDevice)
include hd

theorem exec_devNew_noConfig (hc : s.cfg = none) : exec .devNew s = .next (s.refuse .noConfig) := by
  change execDevNew s = _
  rw [execDevNew, State.withTransport_noDevice _ hd, hc]

theorem exec_devNew_built {c : BuiltConfig} (hc : s.cfg = some c) :
    exec .devNew s = .next (((s.setDevCfg (some c)).setDev .uninitialized).respond []) := by
  change execDevNew s = _
  rw [execDevNew, State.withTransport_noDevice _ hd, hc]

theorem exec_devInit_noDevice : exec .devInit s = .next (s.refuse .noDevice) := by
  change execDevInit s = _
  simp only [execDevInit, hd]

theorem exec_devReadxyz_noDevice : exec .devReadxyz s = .next (s.refuse .noDevice) := by
  change execDevReadxyz s = _
  simp only [execDevReadxyz, hd]

theorem exec_devDrop_noDevice : exec .devDrop s = .next (s.refuse .noDevice) := by
  change execDevDrop s = _
  simp only [execDevDrop, hd]

end

/-! ### With a device, whatever its state -/

section
variable {s : State} (hd : s.dev ≠ .noDevice)
include hd

theorem exec_devNew_owned : exec .devNew s = .next (s.refuse .transportOwned) :=
  congrArg _ (State.withTransport_owned hd _)

/-- `DEV_INIT` runs its sequence from `Uninitialized` and from `Ready` alike (42_device.md R155). -/
theorem exec_devInit_device {c : BuiltConfig} (hc : s.devCfg = some c) :
    exec .devInit s = .next (initSequence c s) := by
  change execDevInit s = _
  cases hdev : s.dev with
  | noDevice => exact absurd hdev hd
  | uninitialized => simp only [execDevInit, hdev, hc]
  | ready => simp only [execDevInit, hdev, hc]

theorem exec_devDrop_device : exec .devDrop s = .next (((s.setDev .noDevice).setDevCfg none).respond []) := by
  change execDevDrop s = _
  cases hdev : s.dev with
  | noDevice => exact absurd hdev hd
  | uninitialized => simp only [execDevDrop, hdev]
  | ready => simp only [execDevDrop, hdev]

end

/-! ### The initialisation sequence, by the answers it gets -/

theorem writeAll_cons_ok {a : Nat} {v : Byte} {ws : List (Nat × Byte)} {s : State}
    (h : s.writeAnswer a v = some (.ok ())) : writeAll ((a, v) :: ws) s = writeAll ws (s.afterWrite a v) := by
  rw [writeAll, tWrite_ok h, Reply.andThen_ok]

theorem writeAll_cons_err {a : Nat} {v : Byte} {ws : List (Nat × Byte)} {s : State} {e : BusErr}
    (h : s.writeAnswer a v = some (.err e)) :
    writeAll ((a, v) :: ws) s = (some (.err e), s.record (.write a v (.err e))) := by
  rw [writeAll, tWrite_err h, Reply.andThen_err]
  rfl

/-- The last steps (42_device.md R155): the delay is recorded, and the device is `Ready`. -/
theorem settle_of_answering {s : State} (h : s.portSilent = false) : settle s =
    { s with dev := .ready, outcome := .responded (.ok []),
             trace := s.trace ++ [.delay s.params.settleMs, .response (.ok [])] } := by
  rw [settle, delay_of_answering h, Reply.finish_ok]
  exact congrArg (State.setDev · .ready) (State.record_present s _ (.ok []))

/-- After a write list that succeeded, the settling delay (42_device.md R155). -/
theorem configure_of_writes {c : BuiltConfig} {s t : State}
    (h : writeAll (c.writes s.params) s = (some (.ok ()), t)) : configure c s = settle t := by
  rw [configure, h, Reply.finish_ok]

section
variable {c : BuiltConfig} {s s0 : State} (h0 : s0 = s.setDev .uninitialized)
include h0

theorem initSequence_readFails {e : BusErr} (h : s0.readAnswer s.params.idReg 1 = some (.err e)) :
    initSequence c s = { s0 with
      outcome := .responded (.busError e),
      trace := s0.trace ++ [.read s.params.idReg 1 (.err e), .response (.busError e)] } := by
  subst h0
  exact Reply.finish_failed (tRead_err h)

/-- Another identity ends the sequence before its writes (42_device.md R157). -/
theorem initSequence_mismatch {b : Byte} (hb : b ≠ s.params.idExpected)
    (h : s0.readAnswer s.params.idReg 1 = some (.ok #v[b])) :
    initSequence c s = { s0 with
      outcome := .responded .identityMismatch,
      trace := s0.trace ++ [.read s.params.idReg 1 (.ok [b]), .response .identityMismatch] } := by
  subst h0
  rw [initSequence, tRead_ok h, Reply.finish_ok, if_neg hb]
  exact State.record_present ..

/-- The expected identity leads to the configuration, after that one read. -/
theorem initSequence_match (h : s0.readAnswer s.params.idReg 1 = some (.ok #v[s.params.idExpected])) :
    initSequence c s = configure c (s0.afterReads s.params.idReg [s.params.idExpected]) := by
  subst h0
  rw [initSequence, tRead_ok h, Reply.finish_ok, if_pos rfl, State.afterReads_one]

end

/-! ### `DEV_INIT` -/

/-- Settles O34: the sequence by the answer to each of its transactions, the write list taken apart write by write. -/
theorem devInitRunsItsSequence : Obligations.DevInitRunsItsSequence := by
  refine ⟨fun _ => decode_formatN_word decode_devInit (by decide), fun _ => exec_devInit_noDevice, ?_⟩
  rintro s s0 s1 s2 s3 s4 c hd hc h0 rfl rfl rfl rfl
  rw [exec_devInit_device hd hc]
  refine ⟨fun e hid => ?idFails, fun b hb hid => ?mismatch, fun hid => ?matched⟩
  case idFails => exact congrArg _ (initSequence_readFails h0 hid)
  case mismatch => exact congrArg _ (initSequence_mismatch h0 hb hid)
  case matched =>
    rw [initSequence_match h0 hid]
    subst h0
    refine ⟨fun e htiming => ?timingFails, fun htiming => ⟨fun e hmeasure => ?measureFails, fun hmeasure =>
      ⟨fun e hpower => ?powerFails, fun hpower hs => ?succeeds⟩⟩⟩
    case timingFails => exact congrArg _ (Reply.finish_failed (writeAll_cons_err htiming))
    case measureFails =>
      exact congrArg _ (Reply.finish_failed ((writeAll_cons_ok htiming).trans (writeAll_cons_err hmeasure)))
    case powerFails =>
      exact congrArg _ (Reply.finish_failed
        ((writeAll_cons_ok htiming).trans ((writeAll_cons_ok hmeasure).trans (writeAll_cons_err hpower))))
    case succeeds =>
      have hdone := configure_of_writes (c := c)
        ((writeAll_cons_ok htiming).trans ((writeAll_cons_ok hmeasure).trans (writeAll_cons_ok hpower)))
      exact congrArg _ (hdone.trans (settle_of_answering hs))

/-- Settles O35: the mismatch leaves the state before the read, but for the outcome, the one read and the response. -/
theorem identityMismatchWritesNothing : Obligations.IdentityMismatchWritesNothing := by
  intro s c b hd hc hb hid
  exact ⟨_, (exec_devInit_device hd hc).trans (congrArg _ (initSequence_mismatch rfl hb hid)), rfl, rfl, rfl, rfl⟩

/-! ### `DEV_READXYZ` -/

theorem exec_devReadxyz_uninitialized {s : State} (hd : s.dev = .uninitialized) :
    exec .devReadxyz s = .next (s.raise .notReady) := by
  change execDevReadxyz s = _
  simp only [execDevReadxyz, hd]

section
variable {s : State} (hd : s.dev = .ready)
include hd

theorem exec_devReadxyz_ready : exec .devReadxyz s = .next (Reply.finish (tBurst s.params.dataStart 6 s)
    fun b s1 => s1.respond (convert s.params b).bytes) := by
  change execDevReadxyz s = _
  simp only [execDevReadxyz, hd]

theorem exec_devReadxyz_burstOk {t : State} {b : Vector Byte 6}
    (h : tBurst s.params.dataStart 6 s = (some (.ok b), t)) :
    exec .devReadxyz s = .next (t.respond (convert s.params b).bytes) := by
  rw [exec_devReadxyz_ready hd, h, Reply.finish_ok]

theorem exec_devReadxyz_burstFails {t : State} {v : Event} {e : BusErr}
    (h : tBurst s.params.dataStart 6 s = (some (.err e), t.record v)) :
    exec .devReadxyz s = .next
      { t with outcome := .responded (.busError e), trace := t.trace ++ [v, .response (.busError e)] } := by
  rw [exec_devReadxyz_ready hd, Reply.finish_failed h]

end

/-- Settles O38: in `Ready`, `TBurst` of the six data registers as one read on a bus that frames bursts and as the
sequential fallback on one that does not. -/
theorem devReadxyzReadsOneSample : Obligations.DevReadxyzReadsOneSample := by
  refine ⟨fun _ => decode_formatN_word decode_devReadxyz (by decide), fun _ => exec_devReadxyz_noDevice,
    fun _ => exec_devReadxyz_uninitialized, fun s b d hd hf h hdata => ?framedOk, fun s e hd hf h => ?framedErr,
    fun s b d hd hf h hdata => ?sequentialOk, fun s bs e hd hf hl h he => ?sequentialErr⟩
  case framedOk =>
    subst hdata
    rw [exec_devReadxyz_burstOk hd ((tBurst_framed hf).trans (memRead_of_answer h))]
    exact congrArg _ (State.record_present ..)
  case framedErr => exact exec_devReadxyz_burstFails hd ((tBurst_framed hf).trans (memRead_of_answer h))
  case sequentialOk =>
    subst hdata
    exact exec_devReadxyz_burstOk hd ((tBurst_unframed hf).trans (seqRead_ok s _ 6 b h))
  case sequentialErr =>
    exact exec_devReadxyz_burstFails hd ((tBurst_unframed hf).trans (seqRead_fails s _ 6 bs e hl h he))

/-- Settles O39: the response `NOT_READY` is the only event, and no transaction. -/
theorem readBeforeInitIsNotReady : Obligations.ReadBeforeInitIsNotReady := by
  intro s hd
  refine ⟨_, exec_devReadxyz_uninitialized hd, rfl, hd, ?_⟩
  simp [Trace.transactions, Event.isTransaction]

/-! ### `DEV_NEW` and `DEV_DROP` -/

/-- Settles O33: the owner of the transport is checked before the built config. -/
theorem devNewConstructsTheDevice : Obligations.DevNewConstructsTheDevice :=
  ⟨fun _ => decode_formatN_word decode_devNew (by decide), fun _ => exec_devNew_owned,
    fun _ => exec_devNew_noConfig, fun _ _ hd hc => exec_devNew_built hd hc⟩

/-- Settles O40: `DEV_DROP` writes the device's two fields and responds. -/
theorem devDropReleasesTheDevice : Obligations.DevDropReleasesTheDevice :=
  ⟨fun _ => decode_formatN_word decode_devDrop (by decide), fun _ => exec_devDrop_noDevice,
    fun _ => exec_devDrop_device⟩

end Sys2Proof.Machine
end

section
/-! PROOF. Conversion and scaling (43_conversion.md R180 to R189): an axis value is the two's-complement value of its
pair's 12-bit field, a scaled value is the 32-bit value that is the product, and the two requests that answer them. -/

namespace Sys2Proof

/-- A request of format P: its operation code above three zero bytes, and any six bytes of payload. -/
theorem decode_formatP_word {p : Params} {opc : Byte} {w : Word}
    {i : Byte → Byte → Byte → Byte → Byte → Byte → Instr}
    (hdec : ∀ {r : Request}, r.opc = opc → decode p r = decodeP r i) (hw : w = mkWord opc 0 0 0)
    (p0 p1 p2 p3 p4 p5 : Byte) : decode p ⟨w, [p0, p1, p2, p3, p4, p5]⟩ = .ok (i p0 p1 p2 p3 p4 p5) := by
  subst hw
  rw [hdec (Request.opc_mkWord ..)]
  exact decodeP_eq_ok i (Request.a_mkWord ..) (Request.b_mkWord ..) (Request.c_mkWord ..) rfl

end Sys2Proof

namespace Sys2Proof.Machine

/-! ### The value of an axis (R182 to R184) -/

/-- The model's `sext` is the two's-complement value of a bit vector, at every width. -/
theorem sext_eq_toInt {n : Nat} (v : BitVec n) : sext v = v.toInt := by
  cases n with
  | zero => simp [sext, BitVec.eq_nil v]
  | succ n =>
    have hsign : v.toNat < 2 ^ n ↔ 2 * v.toNat < 2 ^ (n + 1) := by omega
    rw [BitVec.toInt_eq_toNat_cond, sext, Nat.add_sub_cancel, Nat.cast_pow]
    exact if_congr hsign rfl rfl

/-- The 16 bits of an axis value hold the value of the 12-bit field without loss. -/
theorem axisValue_toInt (p : Params) (f g : Byte) : (axisValue p f g).toInt =
    (sampleField p.align (pairHigh p.order f g ++ pairLow p.order f g)).toInt := by
  rw [axisValue, sext_eq_toInt]
  exact BitVec.toInt_signExtend_of_le (by decide)

/-- `MSB`: all of the high byte above the high half of the low byte. -/
theorem sampleField_msb_toNat (h l : Byte) : (sampleField .msb (h ++ l)).toNat = h.toNat * 16 + l.toNat / 16 := by
  have := h.isLt; have := l.isLt
  simp only [sampleField, BitVec.extractLsb'_toNat, toNat_append_eq, Nat.shiftRight_eq_div_pow]
  omega

/-- `LSB`: the low half of the high byte above all of the low byte. -/
theorem sampleField_lsb_toNat (h l : Byte) : (sampleField .lsb (h ++ l)).toNat = h.toNat % 16 * 256 + l.toNat := by
  have := h.isLt; have := l.isLt
  simp only [sampleField, BitVec.extractLsb'_toNat, toNat_append_eq, Nat.shiftRight_eq_div_pow]
  omega

/-- Which byte is the high one (R182), from the two clauses of `ORDER`. -/
theorem pair_of_order {o : Order} {f g h l : Byte}
    (ho : (o = .highFirst ∧ h = f ∧ l = g) ∨ (o = .lowFirst ∧ l = f ∧ h = g)) :
    pairHigh o f g = h ∧ pairLow o f g = l := by
  rcases ho with ⟨rfl, rfl, rfl⟩ | ⟨rfl, rfl, rfl⟩
  · exact ⟨rfl, rfl⟩
  · exact ⟨rfl, rfl⟩

/-- The field as a number (R183), from the two clauses of `ALIGN`. -/
theorem sampleField_toNat_of_align {al : Align} {h l : Byte} {n : Nat}
    (ha : (al = .msb ∧ n = h.toNat * 16 + l.toNat / 16) ∨ (al = .lsb ∧ n = h.toNat % 16 * 256 + l.toNat)) :
    (sampleField al (h ++ l)).toNat = n := by
  rcases ha with ⟨rfl, rfl⟩ | ⟨rfl, rfl⟩
  · exact sampleField_msb_toNat h l
  · exact sampleField_lsb_toNat h l

/-- Settles O44: the pair by `ORDER`, its field by `ALIGN`, and the sign rule of `sext` at 12 bits. -/
theorem convertPairsExtractsAndExtends : Obligations.ConvertPairsExtractsAndExtends := by
  refine ⟨fun _ _ => ⟨rfl, rfl, rfl⟩, fun p f g H L n ho ha => ?_⟩
  obtain ⟨hhigh, hlow⟩ := pair_of_order ho
  rw [axisValue_toInt, hhigh, hlow, ← sext_eq_toInt, sext, sampleField_toNat_of_align ha]
  rfl

theorem axisValue_bounds (p : Params) (f g : Byte) :
    -2048 ≤ (axisValue p f g).toInt ∧ (axisValue p f g).toInt ≤ 2047 := by
  rw [axisValue_toInt]
  exact ⟨BitVec.le_toInt _, Int.le_of_lt_add_one (BitVec.toInt_lt (w := 12))⟩

/-- Settles O45: each element is an axis value, the value of 12 bits. -/
theorem samplesHaveTwelveBits : Obligations.SamplesHaveTwelveBits :=
  fun p _ => ⟨axisValue_bounds p _ _, axisValue_bounds p _ _, axisValue_bounds p _ _⟩

/-! ### The result encodings (R185) -/

/-- The slice that starts at bit `k`, as a quotient. -/
theorem slice_eq_quotient {w : Nat} (v : BitVec w) (k n : Nat) :
    v.extractLsb' k n = BitVec.ofNat n (v.toNat / 2 ^ k) := by
  rw [BitVec.extractLsb', Nat.shiftRight_eq_div_pow]

/-- Settles O49: each byte is the slice of the pattern that starts at a multiple of eight bits. -/
theorem resultsAreEncodedHighByteFirst : Obligations.ResultsAreEncodedHighByteFirst := by
  refine ⟨fun v => ?enc16, fun v => ?enc32, by decide, by decide, by decide⟩
  case enc16 => simp [enc16, hiByte, loByte, slice_eq_quotient]
  case enc32 => simp [enc32, slice_eq_quotient]

/-! ### The scaled value (R187) -/

/-- The 32-bit value that is the product is the scaled value. -/
theorem scaleValue_eq_of_toInt {p : Params} {v : I16} {a : I32} (h : a.toInt = v.toInt * p.sens) :
    scaleValue p v = a := by
  rw [scaleValue, ← h, BitVec.ofInt_toInt]

/-! ### `CONV_RAW` and `SCALE` (R186, R189) -/

theorem exec_convRaw (p0 p1 p2 p3 p4 p5 : Byte) (s : State) : exec (.convRaw p0 p1 p2 p3 p4 p5) s =
    .next (s.respond (convert s.params #v[p0, p1, p2, p3, p4, p5]).bytes) := rfl

theorem exec_scale (x y z : I16) (s : State) :
    exec (.scale x y z) s = .next (s.respond (scaledBytes s.params ⟨x, y, z⟩)) := rfl

/-- Conversion reads no parameter but `ORDER` and `ALIGN` (R180). -/
theorem convert_congr {p q : Params} (ho : p.order = q.order) (ha : p.align = q.align) (b : Vector Byte 6) :
    convert p b = convert q b := by
  simp only [convert, axisValue, ho, ha]

/-- Settles O46: a word of format P, and the response with the converted triple. -/
theorem convRawIsPure : Obligations.ConvRawIsPure := by
  refine ⟨fun p => decode_formatP_word decode_convRaw (by decide), fun s m d p0 p1 p2 p3 p4 p5 hm hd => ?next,
    fun s u p0 p1 p2 p3 p4 p5 ho ha => ?pure⟩
  case next =>
    subst hm hd
    exact exec_convRaw ..
  case pure =>
    refine ⟨_, _, exec_convRaw .., exec_convRaw .., ?_⟩
    rw [State.respond_outcome, State.respond_outcome, convert_congr ho ha]

/-- Settles O48: the payload is a sample's bytes, and each product is the 32-bit value that `scaleValue` stands for. -/
theorem scaleAnswersThreeProducts : Obligations.ScaleAnswersThreeProducts := by
  have hword : (0x31000000 : Word) = mkWord 0x31 0 0 0 := by decide
  refine ⟨fun p x y z => ?word, fun s x y z d hd => ?next, fun s x y z a b c d ha hb hc hd => ?products,
    fun p hs => ?least, fun p => ?zero⟩
  case word =>
    rw [hword]
    exact decode_scale_of_sample p ⟨x, y, z⟩
  case next =>
    subst hd
    exact exec_scale ..
  case products =>
    rw [← scaleValue_eq_of_toInt ha, ← scaleValue_eq_of_toInt hb, ← scaleValue_eq_of_toInt hc] at hd
    subst hd
    exact exec_scale ..
  case least =>
    rw [scaleValue_eq_of_toInt (a := -3276800) (by rw [hs]; decide)]
    decide
  case zero => exact scaleValue_eq_of_toInt (by simp)

end Sys2Proof.Machine
end

section
/-! PROOF. The causes of the error statuses (60_exceptions.md R200): how a request that ends after a port operation can
answer, said once (`finish_responded`), and from it what each request that can answer an error answers. -/

namespace Sys2Proof.Machine

/-! ### The fault of the last transaction -/

/-- The response `x` of `t` is the `BUS_ERROR` of the last transaction since `s`, which failed with that very fault
(60_exceptions.md R201). -/
def FaultPassedOn (s t : State) (x : Response) : Prop :=
  ∃ e, x = .busError e ∧ ∃ (es : List Event) (y : Event),
    t.trace = s.trace ++ es ++ [y, .response x] ∧ y.fault = some e

/-- The response `x` of `t` is an `OK` or such a `BUS_ERROR`. -/
def OkOrFault (s t : State) (x : Response) : Prop := (∃ d, x = .ok d) ∨ FaultPassedOn s t x

/-- Events recorded before the operations that faulted do not matter. -/
theorem FaultPassedOn.of_grows {s u t : State} {x : Response} (hgrow : ∃ es, u.trace = s.trace ++ es)
    (h : FaultPassedOn u t x) : FaultPassedOn s t x := by
  obtain ⟨es, hes⟩ := hgrow
  obtain ⟨e, hx, fs, y, htrace, hfault⟩ := h
  exact ⟨e, hx, es ++ fs, y, by rw [htrace, hes, List.append_assoc s.trace], hfault⟩

theorem OkOrFault.of_grows {s u t : State} {x : Response} (hgrow : ∃ es, u.trace = s.trace ++ es)
    (h : OkOrFault u t x) : OkOrFault s t x :=
  h.imp_right (FaultPassedOn.of_grows hgrow)

theorem respond_responded {s : State} {d : List Byte} {x : Response} (h : (s.respond d).outcome = .responded x) :
    ∃ d, x = .ok d :=
  ⟨d, by simpa using h.symm⟩

theorem raise_responded {s : State} {e : ErrorKind} {x : Response} (h : (s.raise e).outcome = .responded x) :
    x = e.response := by
  simpa using h.symm

theorem refuse_not_responded {s : State} {w : RefusalReason} {x : Response} :
    (s.refuse w).outcome ≠ .responded x := by
  simp

/-! ### A request that ends after a port operation -/

section
variable {α : Type} {P : Event → Prop} {n : Nat} {s : State} {r : Reply α} {x : Response} (hran : Reply.Ran P n s r)
include hran

/-- If such a request answers, the operation failed and its fault is passed on, or it succeeded and what follows it
answers; on a silent port there is no response. -/
theorem finish_responded {k : α → State → State} (h : (r.finish k).outcome = .responded x) :
    FaultPassedOn s (r.finish k) x ∨
    ∃ a u, r = (some (.ok a), u) ∧ (∃ es, u.trace = s.trace ++ es) ∧ (k a u).outcome = .responded x := by
  obtain ⟨ans, u⟩ := r
  obtain ⟨es, htrace, -, -, hend⟩ := hran
  rcases ans with _ | (a | e)
  case none =>
    obtain ⟨w, hstuck, -⟩ := hend
    exact absurd (hstuck.symm.trans h) (by simp)
  case some.ok => exact .inr ⟨a, u, rfl, ⟨es, htrace⟩, h⟩
  case some.err =>
    obtain ⟨-, fs, y, rfl, hfault, -⟩ := hend
    replace htrace : u.trace = s.trace ++ (fs ++ [y]) := htrace
    obtain rfl : x = .busError e := raise_responded h
    exact .inl ⟨e, rfl, fs, y, by simp [htrace, ErrorKind.response], hfault⟩

/-- A request that only responds after its operation. -/
theorem finish_respond_okOrFault {f : α → List Byte}
    (h : (r.finish fun a u => u.respond (f a)).outcome = .responded x) :
    OkOrFault s (r.finish fun a u => u.respond (f a)) x := by
  rcases finish_responded hran h with hfault | ⟨a, u, -, -, hok⟩
  · exact .inr hfault
  · exact .inl (respond_responded hok)

/-- The same for a transport request: one that answers was not refused. -/
theorem withTransport_okOrFault {f : α → List Byte}
    (h : (s.withTransport (r.finish fun a u => u.respond (f a))).outcome = .responded x) :
    OkOrFault s (s.withTransport (r.finish fun a u => u.respond (f a))) x := by
  by_cases hd : s.dev = .noDevice
  · rw [State.withTransport_noDevice _ hd] at h ⊢
    exact finish_respond_okOrFault hran h
  · rw [State.withTransport_owned hd] at h
    exact absurd h refuse_not_responded

end

/-! ### The requests that use the ports -/

/-- A burst of any count: on a framed bus one transaction, even for the count 0 that no encoding has. -/
theorem tBurst_ran_any {P : Event → Prop} (a n : Nat) (s : State) (hP : ∀ e, P e) :
    Reply.Ran P (n + 1) s (tBurst a n s) := by
  cases hf : s.params.framed with
  | true =>
    rw [tBurst_framed hf]
    exact (memRead_ran fun _ => hP _).mono (by omega) fun _ => id
  | false =>
    rw [tBurst_unframed hf]
    exact (seqRead_ran fun _ _ _ => hP _).mono (by omega) fun _ => id

/-- A successful `TRead` delivers the byte that its one event records. -/
theorem tRead_ok_trace {a : Nat} {s u : State} {b : Byte} (h : tRead a s = (some (.ok b), u)) :
    u.trace = s.trace ++ [.read a 1 (.ok [b])] := by
  rcases hans : s.readAnswer a 1 with _ | (v | e)
  case none => simp [tRead_silent hans] at h
  case some.ok =>
    obtain ⟨c, rfl⟩ : ∃ c, v = #v[c] := ⟨v[0], by ext i hi; simp [Nat.lt_one_iff.mp hi]⟩
    rw [tRead_ok hans] at h
    cases h
    rfl
  case some.err => simp [tRead_err hans] at h

theorem settle_okOrFault {s : State} {x : Response} (h : (settle s).outcome = .responded x) :
    OkOrFault s (settle s) x := by
  rcases finish_responded (delay_ran (P := fun _ => True) trivial) h with hfault | ⟨_, _, -, -, hok⟩
  · exact .inr hfault
  · exact .inl (respond_responded hok)

theorem configure_okOrFault {c : BuiltConfig} {s : State} {x : Response}
    (h : (configure c s).outcome = .responded x) : OkOrFault s (configure c s) x := by
  rcases finish_responded (writeAll_ran (P := fun _ => True) fun _ _ _ => trivial) h with
    hfault | ⟨_, u, hwrites, hgrow, hsettle⟩
  · exact .inr hfault
  · rw [configure_of_writes hwrites]
    exact (settle_okOrFault hsettle).of_grows hgrow

/-- The sequence answers `IDENTITY_MISMATCH` only right after the read of another byte (42_device.md R157). -/
theorem initSequence_responded {c : BuiltConfig} {s : State} {x : Response}
    (h : (initSequence c s).outcome = .responded x) :
    OkOrFault s (initSequence c s) x ∨ (x = .identityMismatch ∧ ∃ b, b ≠ s.params.idExpected ∧
      (initSequence c s).trace = s.trace ++ [.read s.params.idReg 1 (.ok [b]), .response x]) := by
  rcases finish_responded (tRead_ran (P := fun _ => True) fun _ => trivial) h with
    hfault | ⟨b, u, hread, hgrow, hrest⟩
  · exact .inl (.inr hfault)
  · rw [initSequence, hread, Reply.finish_ok]
    by_cases hb : b = s.params.idExpected
    · rw [if_pos hb] at hrest ⊢
      exact .inl ((configure_okOrFault hrest).of_grows hgrow)
    · rw [if_neg hb] at hrest ⊢
      obtain rfl : x = .identityMismatch := raise_responded hrest
      have htrace : u.trace = (s.setDev .uninitialized).trace ++ [.read s.params.idReg 1 (.ok [b])] :=
        tRead_ok_trace hread
      exact .inr ⟨rfl, b, hb, by simp [htrace, ErrorKind.response]⟩

/-! ### The requests that can answer an error of their own -/

section
variable {s t : State} {x : Response}

theorem exec_devInit_responded (h : exec .devInit s = .next t) (hx : t.outcome = .responded x) :
    OkOrFault s t x ∨ (x = .identityMismatch ∧ ∃ b, b ≠ s.params.idExpected ∧
      t.trace = s.trace ++ [.read s.params.idReg 1 (.ok [b]), .response x]) := by
  change execDevInit s = .next t at h
  unfold execDevInit at h
  split at h <;> cases h
  · exact absurd hx refuse_not_responded
  · exact initSequence_responded hx
  · exact initSequence_responded hx

theorem exec_devReadxyz_responded (h : exec .devReadxyz s = .next t) (hx : t.outcome = .responded x) :
    OkOrFault s t x ∨
    (x = .notReady ∧ s.dev = .uninitialized ∧ t.trace = s.trace ++ [.response x]) := by
  cases hd : s.dev with
  | noDevice =>
    cases (exec_devReadxyz_noDevice hd).symm.trans h
    exact absurd hx refuse_not_responded
  | uninitialized =>
    cases (exec_devReadxyz_uninitialized hd).symm.trans h
    cases raise_responded hx
    exact .inr ⟨rfl, rfl, rfl⟩
  | ready =>
    cases (exec_devReadxyz_ready hd).symm.trans h
    exact .inl (finish_respond_okOrFault (tBurst_ran_any (P := fun _ => True) _ _ _ fun _ => trivial) hx)

theorem exec_cfgBuild_responded (h : exec .cfgBuild s = .next t) (hx : t.outcome = .responded x) :
    (∃ d, x = .ok d) ∨ (x = .invalidConfig ∧ legal s.stg = false ∧ t.trace = s.trace ++ [.response x]) := by
  cases hl : legal s.stg with
  | true =>
    cases (exec_cfgBuild_legal hl).symm.trans h
    exact .inl (respond_responded hx)
  | false =>
    cases (exec_cfgBuild_illegal hl).symm.trans h
    cases raise_responded hx
    exact .inr ⟨rfl, rfl, rfl⟩

/-! ### The requests that answer `OK` or nothing -/

theorem exec_devNew_responded (h : exec .devNew s = .next t) (hx : t.outcome = .responded x) : ∃ d, x = .ok d := by
  by_cases hd : s.dev = .noDevice
  · cases hc : s.cfg with
    | none =>
      cases (exec_devNew_noConfig hd hc).symm.trans h
      exact absurd hx refuse_not_responded
    | some c =>
      cases (exec_devNew_built hd hc).symm.trans h
      exact respond_responded hx
  · cases (exec_devNew_owned hd).symm.trans h
    exact absurd hx refuse_not_responded

theorem exec_devDrop_responded (h : exec .devDrop s = .next t) (hx : t.outcome = .responded x) : ∃ d, x = .ok d := by
  by_cases hd : s.dev = .noDevice
  · cases (exec_devDrop_noDevice hd).symm.trans h
    exact absurd hx refuse_not_responded
  · cases (exec_devDrop_device hd).symm.trans h
    exact respond_responded hx

/-! ### Every request -/

/-- The rows `OK` and `BUS_ERROR` of a request that uses the ports, next to a row `Q` of its own. -/
theorem OkOrFault.listed {i : Instr} {Q : Prop} (hi : i.usesPorts = true) (h : OkOrFault s t x ∨ Q) :
    (∃ d, x = .ok d) ∨
    (∃ e, x = .busError e ∧ i.usesPorts = true ∧
      ∃ (es : List Event) (y : Event), t.trace = s.trace ++ es ++ [y, .response x] ∧ y.fault = some e) ∨ Q := by
  rcases h with (hok | ⟨e, hx, hlast⟩) | hq
  · exact .inl hok
  · exact .inr (.inl ⟨e, hx, hi, hlast⟩)
  · exact .inr (.inr hq)

end

/-- Settles O51: request by request, by what each can answer. -/
theorem errorsHaveTheirListedCauses : Obligations.ErrorsHaveTheirListedCauses := by
  intro i s t x h hx
  cases i with
  | rdreg addr =>
    cases h
    exact OkOrFault.listed rfl
      (.inl (withTransport_okOrFault (tRead_ran (P := fun _ => True) fun _ => trivial) hx))
  | wrreg addr data =>
    cases h
    exact OkOrFault.listed rfl
      (.inl (withTransport_okOrFault (memWrite_ran (P := fun _ => True) fun _ => trivial) hx))
  | rdburst addr n =>
    cases h
    exact OkOrFault.listed rfl
      (.inl (withTransport_okOrFault (tBurst_ran_any (P := fun _ => True) _ _ _ fun _ => trivial) hx))
  | cfgNew => cases h; exact .inl (respond_responded hx)
  | cfgOdr code => cases h; exact .inl (respond_responded hx)
  | cfgBw code => cases h; exact .inl (respond_responded hx)
  | cfgPmode code => cases h; exact .inl (respond_responded hx)
  | cfgHpf enabled => cases h; exact .inl (respond_responded hx)
  | cfgLpf enabled => cases h; exact .inl (respond_responded hx)
  | cfgBuild =>
    rcases exec_cfgBuild_responded h hx with hok | ⟨hstatus, hillegal, htrace⟩
    · exact .inl hok
    · exact .inr (.inr (.inr (.inl ⟨hstatus, rfl, hillegal, htrace⟩)))
  | devNew => exact .inl (exec_devNew_responded h hx)
  | devInit =>
    exact OkOrFault.listed rfl ((exec_devInit_responded h hx).imp_right
      fun ⟨hstatus, hread⟩ => .inl ⟨hstatus, rfl, hread⟩)
  | devReadxyz =>
    exact OkOrFault.listed rfl ((exec_devReadxyz_responded h hx).imp_right
      fun ⟨hstatus, hcause⟩ => .inr (.inr ⟨hstatus, rfl, hcause⟩))
  | devDrop => exact .inl (exec_devDrop_responded h hx)
  | convRaw p0 p1 p2 p3 p4 p5 => cases h; exact .inl (respond_responded hx)
  | scale x y z => cases h; exact .inl (respond_responded hx)

end Sys2Proof.Machine
end

section
/-! PROOF. Reset (70_reset_and_hazards.md R230) and the refusal mark (R231): port events leave the mark, a response leaves
it and a refusal sets it, so no request clears it and no step does. -/

namespace Sys2Proof.Machine

/-- Settles O1: each value is the field's own line in `State.reset`, the staging being `Settings.default`. -/
theorem resetLeavesTheStatedValues : Obligations.ResetLeavesTheStatedValues :=
  ⟨rfl, rfl, rfl, rfl, rfl, rfl⟩

/-! ### Operations that do not clear the mark -/

/-- If the mark is set in `s`, it is set in `t`. -/
def State.KeepsMark (s t : State) : Prop := s.refused = true → t.refused = true

theorem State.KeepsMark.of_eq {s t : State} (h : t.refused = s.refused) : s.KeepsMark t := h.trans

theorem State.KeepsMark.trans {s t u : State} (h : s.KeepsMark t) (k : t.KeepsMark u) : s.KeepsMark u :=
  fun hs => k (h hs)

theorem respond_keepsMark (s : State) (d : List Byte) : s.KeepsMark (s.respond d) := .of_eq (s.respond_refused d)

theorem raise_keepsMark (s : State) (e : ErrorKind) : s.KeepsMark (s.raise e) := .of_eq (s.raise_refused e)

theorem refuse_keepsMark (s : State) (w : RefusalReason) : s.KeepsMark (s.refuse w) := fun _ => s.refuse_refused w

theorem stage_keepsMark (s : State) (x : Settings) : s.KeepsMark (s.stage x) :=
  .trans (.of_eq (s.setStg_refused x)) (respond_keepsMark _ _)

/-- A request that ends after port events does not clear the mark if what follows the events does not. -/
theorem finish_keepsMark {α : Type} {s : State} {r : Reply α} {k : α → State → State}
    (hr : Ports (fun _ => True) (fun _ => True) s r.2) (hk : ∀ a (u : State), u.KeepsMark (k a u)) :
    s.KeepsMark (r.finish k) := by
  obtain ⟨x, u⟩ := r
  have hports : s.KeepsMark u := .of_eq hr.refused
  rcases x with _ | (a | e)
  case none => exact hports
  case some.ok => exact hports.trans (hk a u)
  case some.err => exact hports.trans (raise_keepsMark u _)

theorem withTransport_keepsMark {s k : State} (h : s.KeepsMark k) : s.KeepsMark (s.withTransport k) := by
  by_cases hd : s.dev = .noDevice
  · rwa [State.withTransport_noDevice k hd]
  · rw [State.withTransport_owned hd k]
    exact refuse_keepsMark s _

/-! ### The requests -/

theorem settle_keepsMark (s : State) : s.KeepsMark (settle s) :=
  finish_keepsMark (delay_ports _ s trivial) fun _ u => .trans (.of_eq (u.setDev_refused _)) (respond_keepsMark _ _)

theorem configure_keepsMark (c : BuiltConfig) (s : State) : s.KeepsMark (configure c s) :=
  finish_keepsMark (writeAll_ports _ s (fun _ _ => trivial) fun _ _ _ => trivial) fun _ u => settle_keepsMark u

theorem initSequence_keepsMark (c : BuiltConfig) (s : State) : s.KeepsMark (initSequence c s) := by
  refine .trans (.of_eq (s.setDev_refused .uninitialized))
    (finish_keepsMark (tRead_ports _ _ fun _ => trivial) fun b u => ?_)
  split
  · exact configure_keepsMark c u
  · exact raise_keepsMark u _

section
variable {s t : State}

theorem exec_cfgBuild_keepsMark (h : exec .cfgBuild s = .next t) : s.KeepsMark t := by
  cases hl : legal s.stg with
  | true =>
    cases (exec_cfgBuild_legal hl).symm.trans h
    exact .trans (.of_eq (s.setCfg_refused _)) (respond_keepsMark _ _)
  | false =>
    cases (exec_cfgBuild_illegal hl).symm.trans h
    exact .trans (.of_eq (s.setCfg_refused _)) (raise_keepsMark _ _)

theorem exec_devNew_keepsMark (h : exec .devNew s = .next t) : s.KeepsMark t := by
  cases h
  refine withTransport_keepsMark ?_
  split
  · exact refuse_keepsMark s _
  · exact .of_eq (by simp)

theorem exec_devInit_keepsMark (h : exec .devInit s = .next t) : s.KeepsMark t := by
  change execDevInit s = .next t at h
  unfold execDevInit at h
  split at h <;> cases h
  · exact refuse_keepsMark s _
  · exact initSequence_keepsMark _ s
  · exact initSequence_keepsMark _ s

theorem exec_devReadxyz_keepsMark (h : exec .devReadxyz s = .next t) : s.KeepsMark t := by
  cases h
  split
  · exact refuse_keepsMark s _
  · exact raise_keepsMark s _
  · exact finish_keepsMark (tBurst_ports _ _ s (fun _ => trivial) fun _ _ _ => trivial) fun _ u =>
      respond_keepsMark u _

theorem exec_devDrop_keepsMark (h : exec .devDrop s = .next t) : s.KeepsMark t := by
  by_cases hd : s.dev = .noDevice
  · cases (exec_devDrop_noDevice hd).symm.trans h
    exact refuse_keepsMark s _
  · cases (exec_devDrop_device hd).symm.trans h
    exact .of_eq (by simp)

/-- No request clears the mark. -/
theorem exec_keepsMark {i : Instr} (h : exec i s = .next t) : s.KeepsMark t := by
  cases i with
  | rdreg addr =>
    cases h
    exact withTransport_keepsMark
      (finish_keepsMark (tRead_ports _ s fun _ => trivial) fun _ u => respond_keepsMark u _)
  | wrreg addr data =>
    cases h
    exact withTransport_keepsMark
      (finish_keepsMark (tWrite_ports _ _ s trivial fun _ => trivial) fun _ u => respond_keepsMark u _)
  | rdburst addr n =>
    cases h
    exact withTransport_keepsMark (finish_keepsMark
      (tBurst_ports _ _ s (fun _ => trivial) fun _ _ _ => trivial) fun _ u => respond_keepsMark u _)
  | cfgNew => cases h; exact stage_keepsMark s _
  | cfgOdr code => cases h; exact stage_keepsMark s _
  | cfgBw code => cases h; exact stage_keepsMark s _
  | cfgPmode code => cases h; exact stage_keepsMark s _
  | cfgHpf enabled => cases h; exact stage_keepsMark s _
  | cfgLpf enabled => cases h; exact stage_keepsMark s _
  | cfgBuild => exact exec_cfgBuild_keepsMark h
  | devNew => exact exec_devNew_keepsMark h
  | devInit => exact exec_devInit_keepsMark h
  | devReadxyz => exact exec_devReadxyz_keepsMark h
  | devDrop => exact exec_devDrop_keepsMark h
  | convRaw p0 p1 p2 p3 p4 p5 => cases h; exact respond_keepsMark s _
  | scale x y z => cases h; exact respond_keepsMark s _

/-! ### The step -/

/-- A reserved request is refused, any other is performed. -/
theorem perform_keepsMark {r : Request} (h : perform r s = .next t) : s.KeepsMark t := by
  unfold perform at h
  split at h
  · exact exec_keepsMark h
  · cases h
    exact refuse_keepsMark s _

theorem takeRequest_keepsMark (h : takeRequest s = .next t) : s.KeepsMark t := by
  unfold takeRequest at h
  split at h
  · cases h
    exact .of_eq rfl
  · exact .trans (.of_eq (s.accept_refused _ _)) (perform_keepsMark h)

/-- A block that has a step takes a request in it, or waits for one. -/
theorem takeRequest_of_step (h : step s = .next t) : takeRequest s = .next t := by
  unfold step at h
  split at h
  · cases h
  · exact h
  · exact h
  · exact h

end

/-- Settles O54: the reset value of the mark, and `exec_keepsMark` carried through the step. -/
theorem theMarkIsNeverCleared : Obligations.TheMarkIsNeverCleared :=
  ⟨rfl, fun _ _ h => takeRequest_keepsMark (takeRequest_of_step h)⟩

end Sys2Proof.Machine
end

section
/-! PROOF. The decoder and the encoder as inverses of each other (30_encoding.md R80 to R87): format by format, what the
decoder accepts is what the encoder writes, and what it rejects is what the clauses of R87 list. -/

namespace Sys2Proof

/-! ### Decoding what the encoder writes -/

/-- Settles O9: request by request, its word is one that the decoder of its format accepts. -/
theorem decodeOfEncode : Obligations.DecodeOfEncode := by
  intro p i hwf
  cases i with
  | rdreg addr => exact decode_plain_rdreg ((addrFits_iff p addr).mp hwf)
  | wrreg addr data => exact decode_plain_wrreg data ((addrFits_iff p addr).mp hwf)
  | rdburst addr n =>
    have hchecks : (addrFits p addr && burstNonempty n && burstFits p addr n) = true := hwf
    simp only [Bool.and_eq_true] at hchecks
    obtain ⟨⟨-, hn⟩, hfit⟩ := hchecks
    exact decode_plain_rdburst ((burstNonempty_iff n).mp hn) ((burstFits_iff p addr n).mp hfit)
  | cfgNew => exact decode_plain_formatN decode_cfgNew
  | cfgOdr o => exact decode_plain_formatS decode_cfgOdr (Odr.ofCode_code o)
  | cfgBw b => exact decode_plain_formatS decode_cfgBw (Bw.ofCode_code b)
  | cfgPmode m => exact decode_plain_formatS decode_cfgPmode (PMode.ofCode_code m)
  | cfgHpf h => exact decode_plain_formatS decode_cfgHpf (enableOfCode_code h)
  | cfgLpf l => exact decode_plain_formatS decode_cfgLpf (enableOfCode_code l)
  | cfgBuild => exact decode_plain_formatN decode_cfgBuild
  | devNew => exact decode_plain_formatN decode_devNew
  | devInit => exact decode_plain_formatN decode_devInit
  | devReadxyz => exact decode_plain_formatN decode_devReadxyz
  | devDrop => exact decode_plain_formatN decode_devDrop
  | convRaw p0 p1 p2 p3 p4 p5 => exact decode_formatP_word decode_convRaw rfl p0 p1 p2 p3 p4 p5
  | scale x y z => exact Machine.decode_scale_of_sample p ⟨x, y, z⟩

/-! ### Encoding what the decoder accepts -/

theorem Request.eq_of_fields {r : Request} {o a b c : Byte} {l : List Byte} (ho : r.opc = o) (ha : r.a = a)
    (hb : r.b = b) (hc : r.c = c) (hl : r.payload = l) : (⟨mkWord o a b c, l⟩ : Request) = r := by
  subst ho ha hb hc hl
  exact r.eq_fields

/-- The request `i` is well-formed, and `r` is its encoding. -/
def Instr.Encodes (p : Params) (i : Instr) (r : Request) : Prop := i.wf p = true ∧ encode i = r

section
variable {p : Params} {r : Request} {opc : Byte} {j : Instr} (hopc : r.opc = opc)
include hopc

theorem encodes_of_decodeN {i : Instr} (h : decodeN r i = .ok j) (hwf : i.wf p = true)
    (henc : encode i = plain opc 0 0) : j.Encodes p r := by
  obtain ⟨ha, hb, hc, hp, rfl⟩ := decodeN_ok h
  exact ⟨hwf, henc.trans (Request.eq_of_fields hopc ha hb hc hp)⟩

/-- Format S: the setting read from a code has that code. -/
theorem encodes_of_decodeS {α : Type} {f : Byte → Option α} {code : α → Byte} {i : α → Instr}
    (h : decodeS r f i = .ok j) (hwf : ∀ v, (i v).wf p = true) (hcode : ∀ {c v}, f c = some v → code v = c)
    (henc : ∀ v, encode (i v) = plain opc (code v) 0) : j.Encodes p r := by
  obtain ⟨hb, hc, hp, v, hv, rfl⟩ := decodeS_ok h
  exact ⟨hwf v, (henc v).trans (Request.eq_of_fields hopc (hcode hv).symm hb hc hp)⟩

/-- Format P: the payload is the one the encoder writes for the request made of it. -/
theorem encodes_of_decodeP {i : Byte → Byte → Byte → Byte → Byte → Byte → Instr} (h : decodeP r i = .ok j)
    (hwf : ∀ p0 p1 p2 p3 p4 p5, (i p0 p1 p2 p3 p4 p5).wf p = true)
    (henc : ∀ p0 p1 p2 p3 p4 p5, encode (i p0 p1 p2 p3 p4 p5) = ⟨mkWord opc 0 0 0, [p0, p1, p2, p3, p4, p5]⟩) :
    j.Encodes p r := by
  obtain ⟨ha, hb, hc, p0, p1, p2, p3, p4, p5, hp, rfl⟩ := decodeP_ok h
  exact ⟨hwf .., (henc ..).trans (Request.eq_of_fields hopc ha hb hc hp)⟩

end

section
variable {p : Params} {r : Request} {j : Instr}

theorem encodes_of_decodeR (hopc : r.opc = 0x01) (h : decodeR p r = .ok j) : j.Encodes p r := by
  obtain ⟨hb, hc, hp, ha, rfl⟩ := decodeR_ok h
  exact ⟨ha, Request.eq_of_fields hopc rfl hb hc hp⟩

theorem encodes_of_decodeW (hopc : r.opc = 0x02) (h : decodeW p r = .ok j) : j.Encodes p r := by
  obtain ⟨hc, hp, ha, rfl⟩ := decodeW_ok h
  exact ⟨ha, Request.eq_of_fields hopc rfl rfl hc hp⟩

theorem encodes_of_decodeU (hopc : r.opc = 0x03) (h : decodeU p r = .ok j) : j.Encodes p r := by
  obtain ⟨hc, hp, ha, hn, hf, rfl⟩ := decodeU_ok h
  exact ⟨by simp [Instr.wf, ha, hn, hf], Request.eq_of_fields hopc rfl rfl hc hp⟩

end

/-- Settles O10: what decodes has the operation code of a row, whose format accepts nothing but what the encoder
writes. -/
theorem encodeOfDecode : Obligations.EncodeOfDecode := by
  intro p r i h
  obtain ⟨row, hrow, hopc⟩ := exists_row_of_decode_ok h
  simp only [opcodeTable, List.mem_cons, List.not_mem_nil, or_false] at hrow
  rcases hrow with rfl | rfl | rfl | rfl | rfl | rfl | rfl | rfl | rfl | rfl | rfl | rfl | rfl | rfl | rfl | rfl
  · exact encodes_of_decodeR hopc (decode_rdreg hopc ▸ h)
  · exact encodes_of_decodeW hopc (decode_wrreg hopc ▸ h)
  · exact encodes_of_decodeU hopc (decode_rdburst hopc ▸ h)
  · exact encodes_of_decodeN hopc (decode_cfgNew hopc ▸ h) rfl rfl
  · exact encodes_of_decodeS hopc (decode_cfgOdr hopc ▸ h) (fun _ => rfl) Odr.code_of_ofCode fun _ => rfl
  · exact encodes_of_decodeS hopc (decode_cfgBw hopc ▸ h) (fun _ => rfl) Bw.code_of_ofCode fun _ => rfl
  · exact encodes_of_decodeS hopc (decode_cfgPmode hopc ▸ h) (fun _ => rfl) PMode.code_of_ofCode fun _ => rfl
  · exact encodes_of_decodeS hopc (decode_cfgHpf hopc ▸ h) (fun _ => rfl) enableCode_of_ofCode fun _ => rfl
  · exact encodes_of_decodeS hopc (decode_cfgLpf hopc ▸ h) (fun _ => rfl) enableCode_of_ofCode fun _ => rfl
  · exact encodes_of_decodeN hopc (decode_cfgBuild hopc ▸ h) rfl rfl
  · exact encodes_of_decodeN hopc (decode_devNew hopc ▸ h) rfl rfl
  · exact encodes_of_decodeN hopc (decode_devInit hopc ▸ h) rfl rfl
  · exact encodes_of_decodeN hopc (decode_devReadxyz hopc ▸ h) rfl rfl
  · exact encodes_of_decodeN hopc (decode_devDrop hopc ▸ h) rfl rfl
  · exact encodes_of_decodeP hopc (decode_convRaw hopc ▸ h) (fun _ _ _ _ _ _ => rfl) fun _ _ _ _ _ _ => rfl
  · exact encodes_of_decodeP (opc := 0x31) hopc (decode_scale hopc ▸ h) (fun _ _ _ _ _ _ => rfl) fun _ _ _ _ _ _ => by
      simp [encode]

/-! ### Words written out -/

/-- A word written out in digits is the word of its four fields. -/
theorem decode_word {p : Params} {w : Word} {l : List Byte} {i : Instr} (hwf : i.wf p = true)
    (henc : encode i = ⟨w, l⟩) : decode p ⟨w, l⟩ = .ok i :=
  henc ▸ decodeOfEncode p i hwf

/-- Settles O13: each word is the encoding of its request, so O9 gives the request back. -/
theorem decodesTheWrittenOutWords : Obligations.DecodesTheWrittenOutWords := fun _ =>
  ⟨decode_word rfl (by decide), decode_word rfl (by decide), decode_word rfl (by decide),
    decode_word rfl (by decide), decode_word rfl (by decide), decode_word rfl (by decide)⟩

/-- Settles O59: each word is the encoding of its request, and each code and frequency the value of its function. -/
theorem settingCodesAreTheListedOnes : Obligations.SettingCodesAreTheListedOnes := by
  refine ⟨fun p => ⟨?_, ?_, ?_, ?_, ?_⟩, fun p => ⟨?_, ?_, ?_, ?_, ?_⟩, fun p => ⟨?_, ?_, ?_, ?_⟩,
    by decide, by decide, by decide, by decide, by decide⟩
  all_goals exact decode_word rfl (by decide)

/-! ### What the decoder rejects -/

/-- The decoder rejects the request (30_encoding.md R87). -/
def Decoded.Rejects (d : Decoded) : Prop := ∃ why, d = .error why

section
variable {p : Params} {r : Request}

theorem noPayload_rejects {i : Instr} : Decoded.Rejects (noPayload r i) ↔ r.payload ≠ [] := by
  by_cases h : r.payload = [] <;> simp [Decoded.Rejects, noPayload, h]

theorem decodeN_rejects {i : Instr} :
    Decoded.Rejects (decodeN r i) ↔ r.a ≠ 0 ∨ r.b ≠ 0 ∨ r.c ≠ 0 ∨ r.payload ≠ [] := by
  unfold decodeN
  split
  · next h => exact iff_of_true ⟨_, rfl⟩ (by tauto)
  · next h => rw [noPayload_rejects]; tauto

theorem decodeS_rejects {α : Type} {f : Byte → Option α} {i : α → Instr} :
    Decoded.Rejects (decodeS r f i) ↔ r.b ≠ 0 ∨ r.c ≠ 0 ∨ f r.a = none ∨ r.payload ≠ [] := by
  unfold decodeS
  split
  · next h => exact iff_of_true ⟨_, rfl⟩ (by tauto)
  · next h =>
    cases hv : f r.a with
    | none => exact iff_of_true ⟨_, rfl⟩ (by simp)
    | some v =>
      change Decoded.Rejects (noPayload r (i v)) ↔ _
      rw [noPayload_rejects]
      simp only [reduceCtorEq, false_or]
      tauto

theorem decodeR_rejects : Decoded.Rejects (decodeR p r) ↔
    r.b ≠ 0 ∨ r.c ≠ 0 ∨ addrFits p r.a = false ∨ r.payload ≠ [] := by
  unfold decodeR
  split
  · next h => exact iff_of_true ⟨_, rfl⟩ (by tauto)
  · split
    · next h => exact iff_of_true ⟨_, rfl⟩ (by tauto)
    · rw [noPayload_rejects]; tauto

theorem decodeW_rejects : Decoded.Rejects (decodeW p r) ↔
    r.c ≠ 0 ∨ addrFits p r.a = false ∨ r.payload ≠ [] := by
  unfold decodeW
  split
  · next h => exact iff_of_true ⟨_, rfl⟩ (by tauto)
  · split
    · next h => exact iff_of_true ⟨_, rfl⟩ (by tauto)
    · rw [noPayload_rejects]; tauto

theorem decodeU_rejects : Decoded.Rejects (decodeU p r) ↔
    r.c ≠ 0 ∨ addrFits p r.a = false ∨ burstNonempty r.b = false ∨ burstFits p r.a r.b = false ∨
      r.payload ≠ [] := by
  unfold decodeU
  split
  · next h => exact iff_of_true ⟨_, rfl⟩ (by tauto)
  · split
    · next h => exact iff_of_true ⟨_, rfl⟩ (by tauto)
    · split
      · next h => exact iff_of_true ⟨_, rfl⟩ (by tauto)
      · rw [noPayload_rejects]; tauto

theorem decodeP_rejects {i : Byte → Byte → Byte → Byte → Byte → Byte → Instr} :
    Decoded.Rejects (decodeP r i) ↔ r.a ≠ 0 ∨ r.b ≠ 0 ∨ r.c ≠ 0 ∨ r.payload.length ≠ 6 := by
  constructor
  · rintro ⟨why, hwhy⟩
    by_contra! h
    obtain ⟨ha, hb, hc, hlen⟩ := h
    obtain ⟨p0, p1, p2, p3, p4, p5, hp⟩ := exists_of_length_six r.payload hlen
    simp [decodeP_eq_ok i ha hb hc hp] at hwhy
  · intro h
    cases hdec : decodeP r i with
    | error why => exact ⟨why, rfl⟩
    | ok j =>
      obtain ⟨ha, hb, hc, p0, p1, p2, p3, p4, p5, hp, -⟩ := decodeP_ok hdec
      simp [ha, hb, hc, hp] at h

theorem addrFits_eq_false_iff (a : Byte) : addrFits p a = false ↔ p.space ≤ a.toNat := by
  simp [addrFits]

theorem burstNonempty_eq_false_iff (n : Byte) : burstNonempty n = false ↔ n = 0 := by
  revert n; decide

theorem burstFits_eq_false_iff (a n : Byte) : burstFits p a n = false ↔ p.space < a.toNat + n.toNat := by
  simp [burstFits]

/-- The clauses of 30_encoding.md R87 over the fields of a request, as O12 writes them out. -/
def Request.Reserved (p : Params) (r : Request) : Prop :=
  r.opc ∉ ([0x01, 0x02, 0x03, 0x10, 0x11, 0x12, 0x13, 0x14, 0x15, 0x16, 0x20, 0x21, 0x22, 0x23, 0x30, 0x31]
      : List Byte)
    ∨ (r.opc ∈ ([0x10, 0x16, 0x20, 0x21, 0x22, 0x23, 0x30, 0x31] : List Byte) ∧ r.a ≠ 0)
    ∨ (r.opc ∉ ([0x02, 0x03] : List Byte) ∧ r.b ≠ 0)
    ∨ r.c ≠ 0
    ∨ (r.opc ∈ ([0x01, 0x02, 0x03] : List Byte) ∧ p.space ≤ r.a.toNat)
    ∨ (r.opc = 0x03 ∧ (r.b = 0 ∨ p.space < r.a.toNat + r.b.toNat))
    ∨ (r.opc ∈ ([0x11, 0x12] : List Byte) ∧ 4 < r.a.toNat)
    ∨ (r.opc = 0x13 ∧ 3 < r.a.toNat)
    ∨ (r.opc ∈ ([0x14, 0x15] : List Byte) ∧ 1 < r.a.toNat)
    ∨ r.payload.length ≠ if r.opc = 0x30 ∨ r.opc = 0x31 then 6 else 0

theorem Request.reserved_formatN {opc : Byte} (hopc : r.opc = opc)
    (h : opc ∈ ([0x10, 0x16, 0x20, 0x21, 0x22, 0x23] : List Byte)) :
    r.Reserved p ↔ r.a ≠ 0 ∨ r.b ≠ 0 ∨ r.c ≠ 0 ∨ r.payload ≠ [] := by
  simp only [List.mem_cons, List.not_mem_nil, or_false] at h
  rcases h with rfl | rfl | rfl | rfl | rfl | rfl <;> simp [Request.Reserved, hopc]

theorem Request.reserved_formatP {opc : Byte} (hopc : r.opc = opc) (h : opc ∈ ([0x30, 0x31] : List Byte)) :
    r.Reserved p ↔ r.a ≠ 0 ∨ r.b ≠ 0 ∨ r.c ≠ 0 ∨ r.payload.length ≠ 6 := by
  simp only [List.mem_cons, List.not_mem_nil, or_false] at h
  rcases h with rfl | rfl <;> simp [Request.Reserved, hopc]

theorem Request.reserved_rate {opc : Byte} (hopc : r.opc = opc) (h : opc ∈ ([0x11, 0x12] : List Byte)) :
    r.Reserved p ↔ r.b ≠ 0 ∨ r.c ≠ 0 ∨ 4 < r.a.toNat ∨ r.payload ≠ [] := by
  simp only [List.mem_cons, List.not_mem_nil, or_false] at h
  rcases h with rfl | rfl <;> simp [Request.Reserved, hopc]

theorem Request.reserved_mode (hopc : r.opc = 0x13) :
    r.Reserved p ↔ r.b ≠ 0 ∨ r.c ≠ 0 ∨ 3 < r.a.toNat ∨ r.payload ≠ [] := by
  simp [Request.Reserved, hopc]

theorem Request.reserved_filter {opc : Byte} (hopc : r.opc = opc) (h : opc ∈ ([0x14, 0x15] : List Byte)) :
    r.Reserved p ↔ r.b ≠ 0 ∨ r.c ≠ 0 ∨ 1 < r.a.toNat ∨ r.payload ≠ [] := by
  simp only [List.mem_cons, List.not_mem_nil, or_false] at h
  rcases h with rfl | rfl <;> simp [Request.Reserved, hopc]

theorem Request.reserved_rdreg (hopc : r.opc = 0x01) :
    r.Reserved p ↔ r.b ≠ 0 ∨ r.c ≠ 0 ∨ p.space ≤ r.a.toNat ∨ r.payload ≠ [] := by
  simp [Request.Reserved, hopc]

theorem Request.reserved_wrreg (hopc : r.opc = 0x02) :
    r.Reserved p ↔ r.c ≠ 0 ∨ p.space ≤ r.a.toNat ∨ r.payload ≠ [] := by
  simp [Request.Reserved, hopc]

theorem Request.reserved_rdburst (hopc : r.opc = 0x03) : r.Reserved p ↔
    r.c ≠ 0 ∨ p.space ≤ r.a.toNat ∨ r.b = 0 ∨ p.space < r.a.toNat + r.b.toNat ∨ r.payload ≠ [] := by
  simp [Request.Reserved, hopc, or_assoc]

/-- An operation code of the clauses' list is one of a row of the table. -/
theorem opcodeTable_opcs : opcodeTable.map OpcodeRow.opc =
    [0x01, 0x02, 0x03, 0x10, 0x11, 0x12, 0x13, 0x14, 0x15, 0x16, 0x20, 0x21, 0x22, 0x23, 0x30, 0x31] := by decide

/-- The decoder rejects exactly the reserved requests: at each operation code the clauses are those of its format. -/
theorem decode_rejects_iff : Decoded.Rejects (decode p r) ↔ r.Reserved p := by
  by_cases hrow : r.opc ∈ opcodeTable.map OpcodeRow.opc
  · rw [opcodeTable_opcs] at hrow
    simp only [List.mem_cons, List.not_mem_nil, or_false] at hrow
    rcases hrow with h | h | h | h | h | h | h | h | h | h | h | h | h | h | h | h
    · rw [decode_rdreg h, decodeR_rejects, Request.reserved_rdreg h, addrFits_eq_false_iff]
    · rw [decode_wrreg h, decodeW_rejects, Request.reserved_wrreg h, addrFits_eq_false_iff]
    · rw [decode_rdburst h, decodeU_rejects, Request.reserved_rdburst h, addrFits_eq_false_iff,
        burstNonempty_eq_false_iff, burstFits_eq_false_iff]
    · rw [decode_cfgNew h, decodeN_rejects, Request.reserved_formatN h (by decide)]
    · rw [decode_cfgOdr h, decodeS_rejects, Request.reserved_rate h (by decide), Odr.ofCode_none]
    · rw [decode_cfgBw h, decodeS_rejects, Request.reserved_rate h (by decide), Bw.ofCode_none]
    · rw [decode_cfgPmode h, decodeS_rejects, Request.reserved_mode h, PMode.ofCode_none]
    · rw [decode_cfgHpf h, decodeS_rejects, Request.reserved_filter h (by decide), enableOfCode_none]
    · rw [decode_cfgLpf h, decodeS_rejects, Request.reserved_filter h (by decide), enableOfCode_none]
    · rw [decode_cfgBuild h, decodeN_rejects, Request.reserved_formatN h (by decide)]
    · rw [decode_devNew h, decodeN_rejects, Request.reserved_formatN h (by decide)]
    · rw [decode_devInit h, decodeN_rejects, Request.reserved_formatN h (by decide)]
    · rw [decode_devReadxyz h, decodeN_rejects, Request.reserved_formatN h (by decide)]
    · rw [decode_devDrop h, decodeN_rejects, Request.reserved_formatN h (by decide)]
    · rw [decode_convRaw h, decodeP_rejects, Request.reserved_formatP h (by decide)]
    · rw [decode_scale h, decodeP_rejects, Request.reserved_formatP h (by decide)]
  · refine iff_of_true ⟨_, decode_unlisted fun hmem => hrow ?_⟩ (.inl (opcodeTable_opcs ▸ hrow))
    obtain ⟨row, hin, hnat⟩ := List.mem_map.mp hmem
    exact List.mem_map.mpr ⟨row, hin, BitVec.eq_of_toNat_eq hnat⟩

end

end Sys2Proof

namespace Sys2Proof.Machine

/-! ### The step on the request at the port -/

section
variable {s : State} {r : Request} {rest : List Request}

/-- A block that is not stuck takes the next request. -/
theorem step_of_not_stuck (h : s.stuck = false) : step s = takeRequest s := by
  unfold step
  cases ho : s.outcome with
  | stuckOn w => simp [State.stuck, ho] at h
  | pending => rfl
  | responded x => rfl
  | refusedFor why => rfl

theorem step_of_request (h : s.stuck = false) (hr : s.requests = r :: rest) :
    step s = perform r (s.accept r rest) := by
  rw [step_of_not_stuck h, takeRequest, hr]

theorem step_of_no_request (h : s.stuck = false) (hr : s.requests = []) : step s = .next s := by
  rw [step_of_not_stuck h, takeRequest, hr]

theorem step_of_stuckOn {w : PortWait} (h : s.outcome = .stuckOn w) : step s = .fault (.portSilent w) := by
  rw [step, h]

theorem perform_ok {i : Instr} (h : decode s.params r = .ok i) : perform r s = exec i s := by
  rw [perform, h]

theorem perform_reserved {why : ReservedWhy} (h : decode s.params r = .error why) :
    perform r s = .next (s.refuse .reservedEncoding) := by
  rw [perform, h]

end

/-- Settles O6: what decodes is well-formed (O10), and the step is `exec` on the state that took the request. -/
theorem stepPerformsTheDecodedRequest : Obligations.StepPerformsTheDecodedRequest := fun _ _ _ _ hstuck hr hdec =>
  ⟨(encodeOfDecode _ _ _ hdec).1, (step_of_request hstuck hr).trans (perform_ok hdec)⟩

/-- Settles O7: the two forms of a step that takes no request. -/
theorem stepWithoutARequest : Obligations.StepWithoutARequest :=
  ⟨fun _ => step_of_no_request, fun _ _ => step_of_stuckOn⟩

/-- Settles O12: the clauses by `decode_rejects_iff`, and the refusal of a request that was taken. -/
theorem reservedRequestsAreRefused : Obligations.ReservedRequestsAreRefused :=
  ⟨fun _ _ => decode_rejects_iff, fun _ _ _ _ hstuck hr hdec =>
    (step_of_request hstuck hr).trans (perform_reserved hdec)⟩

end Sys2Proof.Machine
end

section
/-! PROOF. What every request does, said once: a refused request sets the mark alone (`exec_refused`); any other issues
port events of its own kind and ends with a response or a wait (`exec_ended`), and writes only the fields of the state
that 10_state.md R27 lists for it (`exec_frame`). The rules over all requests are derived from these three. -/

namespace Sys2Proof.Machine

/-! ### The frame of an operation -/

/-- Every field of `t` but the trace and the outcome is that of `s`, and so is every register of the simulator outside
`W`. -/
structure Frame (W : Nat → Prop) (s t : State) : Prop where
  stg : t.stg = s.stg
  cfg : t.cfg = s.cfg
  dev : t.dev = s.dev
  devCfg : t.devCfg = s.devCfg
  refused : t.refused = s.refused
  params : t.params = s.params
  requests : t.requests = s.requests
  oracle : t.oracle = s.oracle
  simFaults : t.simFaults = s.simFaults
  silentAt : t.silentAt = s.silentAt
  simRegs : ∀ a, ¬ W a → t.simRegs.read a = s.simRegs.read a
  simRegs_wf : s.simRegs.wf = true → t.simRegs.wf = true

section
variable {W : Nat → Prop} {s t u : State}

theorem Frame.trans (h : Frame W s t) (k : Frame W t u) : Frame W s u :=
  ⟨k.stg.trans h.stg, k.cfg.trans h.cfg, k.dev.trans h.dev, k.devCfg.trans h.devCfg, k.refused.trans h.refused,
    k.params.trans h.params, k.requests.trans h.requests, k.oracle.trans h.oracle, k.simFaults.trans h.simFaults,
    k.silentAt.trans h.silentAt, fun a ha => (k.simRegs a ha).trans (h.simRegs a ha),
    fun hw => k.simRegs_wf (h.simRegs_wf hw)⟩

/-- Port events keep the frame. -/
theorem Ports.frame {P : Event → Prop} (h : Ports P W s t) : Frame W s t :=
  ⟨h.stg, h.cfg, h.dev, h.devCfg, h.refused, h.params, h.requests, h.oracle, h.simFaults, h.silentAt, h.simRegs,
    h.simRegs_wf⟩

/-- The end of a request keeps the frame. -/
theorem present_frame (s : State) (x : Response) : Frame W s (s.present x) :=
  ⟨rfl, rfl, rfl, rfl, rfl, rfl, rfl, rfl, rfl, rfl, fun _ _ => rfl, id⟩

theorem Frame.setDev (h : Frame W s t) (d : DevState) : Frame W (s.setDev d) (t.setDev d) :=
  ⟨h.stg, h.cfg, rfl, h.devCfg, h.refused, h.params, h.requests, h.oracle, h.simFaults, h.silentAt, h.simRegs,
    h.simRegs_wf⟩

theorem finish_frame {α : Type} {r : Reply α} {k : α → State → State} (hr : Frame W s r.2)
    (hk : ∀ a u, Frame W u (k a u)) : Frame W s (r.finish k) := by
  obtain ⟨x, u⟩ := r
  rcases x with _ | (a | e)
  case none => exact hr
  case some.ok => exact hr.trans (hk a u)
  case some.err => exact hr.trans (present_frame u _)

end

/-! ### The events that a request issues -/

/-- `e` is an event of the bus or the delay port, and one the bus port allows (10_state.md R30) if `i` has an
encoding. -/
def Issues (p : Params) (i : Instr) (e : Event) : Prop :=
  e.isPort = true ∧ (p.wf = true → i.wf p = true → e.legal p = true)

theorem recorded_delivers {n : Nat} (x : Answer (Vector Byte n)) : (recorded x).delivers n = true := by
  cases x with
  | ok b => simp [recorded, Answer.delivers]
  | err e => rfl

theorem legal_read {p : Params} {a n : Nat} (x : Answer (Vector Byte n)) (hn : 1 ≤ n) (ha : a + n ≤ p.space) :
    (Event.read a n (recorded x)).legal p = true := by
  simp [Event.legal, recorded_delivers, hn, ha]

theorem legal_write {p : Params} {a : Nat} (v : Byte) (x : Answer Unit) (ha : a < p.space) :
    (Event.write a v x).legal p = true := by
  simp [Event.legal, ha]

/-- What legal parameters say (log 11), by name. -/
theorem Params.wf_iff {p : Params} : p.wf = true ↔ p.addrWidth ≤ 8 ∧ p.idReg < p.space ∧ p.dataStart + 6 ≤ p.space ∧
    p.regTiming < p.space ∧ p.regMeasure < p.space ∧ p.regPowerCtl < p.space ∧ p.sens < 2 ^ 16 := by
  simp [Params.wf, and_assoc]

theorem rdburst_wf_iff {p : Params} {addr n : Byte} : (Instr.rdburst addr n).wf p = true ↔
    addr.toNat < p.space ∧ 1 ≤ n.toNat ∧ addr.toNat + n.toNat ≤ p.space := by
  simp [Instr.wf, addrFits_iff, burstNonempty_iff, burstFits_iff, and_assoc]

/-- The three writes of the initialisation sequence are inside the register space. -/
theorem writes_inside {p : Params} (hp : p.wf = true) (c : BuiltConfig) : ∀ w ∈ c.writes p, w.1 < p.space := by
  obtain ⟨-, -, -, htiming, hmeasure, hpower, -⟩ := Params.wf_iff.mp hp
  simp [BuiltConfig.writes, ConfReg.addr, htiming, hmeasure, hpower]

/-- How many port events a request may have at most, also when it is not well-formed: a framed read of an empty burst is
one event. -/
def eventBound (i : Instr) : Nat := if i.usesPorts = true then max 1 i.maxPortEvents else 0

theorem eventBound_of_wf {p : Params} {i : Instr} (h : i.wf p = true) : eventBound i = i.maxPortEvents := by
  cases i with
  | rdburst addr n => exact max_eq_right (rdburst_wf_iff.mp h).2.1
  | _ => rfl

theorem eventBound_of_no_ports {i : Instr} (h : i.usesPorts = false) : eventBound i = 0 := by simp [eventBound, h]

/-! ### Refused requests -/

/-- 60_exceptions.md R209: a refused request does nothing else. -/
theorem exec_refused {i : Instr} {s : State} {why : RefusalReason} (h : refusalOf i s = some why) :
    exec i s = .next (s.refuse why) := by
  by_cases hd : s.dev = .noDevice
  case pos =>
    cases i with
    | devNew =>
      by_cases hc : s.cfg = none
      · cases h.symm.trans ((if_pos hd).trans (if_pos hc))
        exact exec_devNew_noConfig hd hc
      · cases h.symm.trans ((if_pos hd).trans (if_neg hc))
    | devInit => cases h.symm.trans (if_pos hd); exact exec_devInit_noDevice hd
    | devReadxyz => cases h.symm.trans (if_pos hd); exact exec_devReadxyz_noDevice hd
    | devDrop => cases h.symm.trans (if_pos hd); exact exec_devDrop_noDevice hd
    | _ => simp [refusalOf, hd] at h
  case neg =>
    cases i with
    | rdreg addr => cases h.symm.trans (if_neg hd); exact exec_rdreg_owned hd addr
    | wrreg addr data => cases h.symm.trans (if_neg hd); exact exec_wrreg_owned hd addr data
    | rdburst addr n => cases h.symm.trans (if_neg hd); exact exec_rdburst_owned hd addr n
    | devNew => cases h.symm.trans (if_neg hd); exact exec_devNew_owned hd
    | _ => simp [refusalOf, hd] at h

/-- Every request is refused, with the next state that a refusal leaves, or it is not. -/
theorem refused_or_not {i : Instr} {s t : State} (h : exec i s = .next t) :
    (∃ why, refusalOf i s = some why ∧ t = s.refuse why) ∨ refusalOf i s = none := by
  cases hr : refusalOf i s with
  | none => exact .inr rfl
  | some why =>
    cases (exec_refused hr).symm.trans h
    exact .inl ⟨why, rfl, rfl⟩

/-! ### Requests that are not refused -/

section
variable {s : State} (hd : s.dev = .noDevice)
include hd

theorem exec_rdreg_noDevice (addr : Byte) :
    exec (.rdreg addr) s = .next (Reply.finish (tRead addr.toNat s) fun b s1 => s1.respond [b]) :=
  congrArg _ (State.withTransport_noDevice _ hd)

theorem exec_wrreg_noDevice (addr data : Byte) :
    exec (.wrreg addr data) s = .next (Reply.finish (tWrite addr.toNat data s) fun _ s1 => s1.respond []) :=
  congrArg _ (State.withTransport_noDevice _ hd)

theorem exec_rdburst_noDevice (addr n : Byte) : exec (.rdburst addr n) s =
    .next (Reply.finish (tBurst addr.toNat n.toNat s) fun b s1 => s1.respond b.toList) :=
  congrArg _ (State.withTransport_noDevice _ hd)

end

section
variable {s : State}

theorem refusalOf_devNew_none (h : refusalOf .devNew s = none) : s.dev = .noDevice ∧ ∃ c, s.cfg = some c := by
  by_cases hd : s.dev = .noDevice <;> cases hc : s.cfg <;> simp_all [refusalOf]

theorem refusalOf_devInit_none (h : refusalOf .devInit s = none) : s.dev ≠ .noDevice := by
  simpa [refusalOf] using h

/-- A `DEV_INIT` that has a next state and is not refused ran its sequence on the device's config. -/
theorem exec_devInit_next {t : State} (hr : refusalOf .devInit s = none) (h : exec .devInit s = .next t) :
    ∃ c, s.devCfg = some c ∧ t = initSequence c s := by
  cases hc : s.devCfg with
  | some c =>
    cases (exec_devInit_device (refusalOf_devInit_none hr) hc).symm.trans h
    exact ⟨c, rfl, rfl⟩
  | none =>
    have hd := refusalOf_devInit_none hr
    change execDevInit s = .next t at h
    unfold execDevInit at h
    split at h <;> simp_all

end

/-! ### How a request that is not refused ends -/

/-- A burst of any count. -/
theorem tBurst_ran_max {P : Event → Prop} {a n : Nat} {s : State}
    (hF : ∀ x : Answer (Vector Byte n), P (.read a n (recorded x)))
    (hS : ∀ k, k < n → ∀ x : Answer (Vector Byte 1), P (.read (a + k) 1 (recorded x))) :
    Reply.Ran P (max 1 n) s (tBurst a n s) := by
  cases hf : s.params.framed with
  | true =>
    rw [tBurst_framed hf]
    exact (memRead_ran hF).mono (le_max_left ..) fun _ => id
  | false =>
    rw [tBurst_unframed hf]
    exact (seqRead_ran hS).mono (le_max_right ..) fun _ => id

section
variable {P : Event → Prop} {s : State}

theorem respond_ended (d : List Byte) : State.Ended P 0 s (s.respond d) := present_ended (by simp) rfl rfl

theorem finish_respond_ended {α : Type} {n : Nat} {r : Reply α} {f : α → List Byte} (h : Reply.Ran P n s r) :
    State.Ended P n s (r.finish fun a u => u.respond (f a)) :=
  finish_ended (m := 0) (k := fun a u => u.respond (f a)) h fun _ _ => respond_ended _

theorem settle_ended (hdelay : ∀ ms, P (.delay ms)) : State.Ended P 1 s (settle s) :=
  finish_ended (m := 0) (delay_ran (hdelay _)) fun _ _ => present_ended (by simp) rfl rfl

variable {c : BuiltConfig} (hwrite : ∀ w ∈ c.writes s.params, ∀ x, P (.write w.1 w.2 x))
  (hdelay : ∀ ms, P (.delay ms))
include hwrite hdelay

theorem configure_ended : State.Ended P 4 s (configure c s) :=
  finish_ended (n := 3) (m := 1) (writeAll_ran hwrite) fun _ _ => settle_ended hdelay

theorem initSequence_ended (hread : ∀ x : Answer (Vector Byte 1), P (.read s.params.idReg 1 (recorded x))) :
    State.Ended P 5 s (initSequence c s) := by
  have hran : Reply.Ran P 1 (s.setDev .uninitialized) (tRead s.params.idReg (s.setDev .uninitialized)) :=
    tRead_ran hread
  refine finish_ended (s := s.setDev .uninitialized) (m := 4) hran fun b _ => ?_
  have hparams : (tRead s.params.idReg (s.setDev .uninitialized)).2.params = s.params :=
    (tRead_ports (P := fun _ => True) (W := fun _ => True) _ _ fun _ => trivial).params
  split
  · exact configure_ended (by rwa [hparams]) hdelay
  · exact present_ended (by simp [ErrorKind.response]) rfl rfl

end

/-- 60_exceptions.md R200 and R206, over every request: one response after events of the request's own kind, or a wait
for a silent port. -/
theorem exec_ended {i : Instr} {s t : State} (hr : refusalOf i s = none) (h : exec i s = .next t) :
    State.Ended (Issues s.params i) (eventBound i) s t := by
  cases i with
  | rdreg addr =>
    have hd : s.dev = .noDevice := by simpa [refusalOf] using hr
    cases (exec_rdreg_noDevice hd addr).symm.trans h
    exact finish_respond_ended (tRead_ran fun x => ⟨rfl, fun _ hwf =>
      legal_read x le_rfl ((addrFits_iff _ _).mp hwf)⟩)
  | wrreg addr data =>
    have hd : s.dev = .noDevice := by simpa [refusalOf] using hr
    cases (exec_wrreg_noDevice hd addr data).symm.trans h
    exact finish_respond_ended (f := fun _ => []) (memWrite_ran fun x => ⟨rfl, fun _ hwf =>
      legal_write data x ((addrFits_iff _ _).mp hwf)⟩)
  | rdburst addr n =>
    have hd : s.dev = .noDevice := by simpa [refusalOf] using hr
    cases (exec_rdburst_noDevice hd addr n).symm.trans h
    refine finish_respond_ended (tBurst_ran_max (fun x => ⟨rfl, fun _ hwf => ?_⟩) fun k hk x => ⟨rfl, fun _ hwf => ?_⟩)
    · obtain ⟨-, hn, hfit⟩ := rdburst_wf_iff.mp hwf
      exact legal_read x hn hfit
    · obtain ⟨-, -, hfit⟩ := rdburst_wf_iff.mp hwf
      replace hk : k < n.toNat := hk
      exact legal_read x le_rfl (by omega)
  | cfgNew => cases h; exact present_ended (by simp) rfl rfl
  | cfgOdr code => cases h; exact present_ended (by simp) rfl rfl
  | cfgBw code => cases h; exact present_ended (by simp) rfl rfl
  | cfgPmode code => cases h; exact present_ended (by simp) rfl rfl
  | cfgHpf enabled => cases h; exact present_ended (by simp) rfl rfl
  | cfgLpf enabled => cases h; exact present_ended (by simp) rfl rfl
  | cfgBuild =>
    cases h
    split
    · exact present_ended (by simp) rfl rfl
    · exact present_ended (by simp [ErrorKind.response]) rfl rfl
  | devNew =>
    obtain ⟨hd, c, hc⟩ := refusalOf_devNew_none hr
    cases (exec_devNew_built hd hc).symm.trans h
    exact present_ended (by simp) rfl rfl
  | devInit =>
    obtain ⟨c, -, rfl⟩ := exec_devInit_next hr h
    refine initSequence_ended (fun w hw x => ⟨rfl, fun hp _ => ?_⟩) (fun _ => ⟨rfl, fun _ _ => rfl⟩)
      fun x => ⟨rfl, fun hp _ => ?_⟩
    · exact legal_write w.2 x (writes_inside hp c w hw)
    · obtain ⟨-, hid, -⟩ := Params.wf_iff.mp hp
      exact legal_read x le_rfl hid
  | devReadxyz =>
    cases hd : s.dev with
    | noDevice => simp [refusalOf, hd] at hr
    | uninitialized =>
      cases (exec_devReadxyz_uninitialized hd).symm.trans h
      exact present_ended (by simp [ErrorKind.response]) rfl rfl
    | ready =>
      cases (exec_devReadxyz_ready hd).symm.trans h
      refine finish_respond_ended (tBurst_ran_max (fun x => ⟨rfl, fun hp _ => ?_⟩) fun k hk x => ⟨rfl, fun hp _ => ?_⟩)
      · obtain ⟨-, -, hdata, -⟩ := Params.wf_iff.mp hp
        exact legal_read x (by omega) hdata
      · obtain ⟨-, -, hdata, -⟩ := Params.wf_iff.mp hp
        exact legal_read x le_rfl (by omega)
  | devDrop =>
    have hd : s.dev ≠ .noDevice := by simpa [refusalOf] using hr
    cases (exec_devDrop_device hd).symm.trans h
    exact present_ended (by simp) rfl rfl
  | convRaw p0 p1 p2 p3 p4 p5 => cases h; exact respond_ended _
  | scale x y z => cases h; exact respond_ended _

/-! ### The end of the initialisation sequence -/

section
variable {W : Nat → Prop} {s u t : State}

/-- The trace grows from `s` to `t`, and by no delay. -/
def GrowsWithoutDelay (s t : State) : Prop := ∃ es, t.trace = s.trace ++ es ∧ ∀ ms, Event.delay ms ∉ es

theorem GrowsWithoutDelay.trans (h : GrowsWithoutDelay s u) (k : GrowsWithoutDelay u t) : GrowsWithoutDelay s t := by
  obtain ⟨es, hes, hnoes⟩ := h
  obtain ⟨fs, hfs, hnofs⟩ := k
  exact ⟨es ++ fs, by rw [hfs, hes, List.append_assoc], fun ms hmem =>
    (List.mem_append.mp hmem).elim (hnoes ms) (hnofs ms)⟩

theorem present_growsWithoutDelay (s : State) (x : Response) : GrowsWithoutDelay s (s.present x) :=
  ⟨[.response x], rfl, by simp⟩

/-- `t` is the end of a part of `DEV_INIT` (42_device.md R155) that started in `s`: it did not answer `OK`, left the
device's state and issued no delay, or it recorded `es` and answered `OK` with the device `Ready`. -/
def InitEnds (W : Nat → Prop) (es : List Event) (s t : State) : Prop :=
  (Frame W s t ∧ GrowsWithoutDelay s t ∧ ∀ d, t.outcome ≠ .responded (.ok d)) ∨
  (Frame W (s.setDev .ready) t ∧ t.outcome = .responded (.ok []) ∧ t.trace = s.trace ++ es ++ [.response (.ok [])])

/-- Operations before that part. -/
theorem InitEnds.after {es fs : List Event} (hframe : Frame W s u) (htrace : u.trace = s.trace ++ es)
    (hgrows : GrowsWithoutDelay s u) (h : InitEnds W fs u t) : InitEnds W (es ++ fs) s t := by
  rcases h with ⟨hfail, hgrows', hnot⟩ | ⟨hready, hok, hes⟩
  · exact .inl ⟨hframe.trans hfail, hgrows.trans hgrows', hnot⟩
  · exact .inr ⟨(hframe.setDev .ready).trans hready, hok, by rw [hes, htrace, List.append_assoc s.trace]⟩

/-- A part that begins with transactions: they all succeeded, or the request ended without an `OK`. -/
theorem finish_ok_or_failed {α : Type} {n : Nat} {r : Reply α} (k : α → State → State)
    (hran : Reply.Ran (fun e => ∀ ms, e ≠ .delay ms) n s r) (hports : Ports (fun _ => True) W s r.2) :
    (∃ a u, r = (some (.ok a), u) ∧ Frame W s u ∧ GrowsWithoutDelay s u) ∨
    (Frame W s (r.finish k) ∧ GrowsWithoutDelay s (r.finish k) ∧ ∀ d, (r.finish k).outcome ≠ .responded (.ok d)) := by
  obtain ⟨x, u⟩ := r
  obtain ⟨es, htrace, -, hno, hend⟩ := hran
  have hframe : Frame W s u := hports.frame
  have hgrows : GrowsWithoutDelay s u := ⟨es, htrace, fun ms hmem => hno _ hmem ms rfl⟩
  rcases x with _ | (a | e)
  case none =>
    obtain ⟨w, hstuck, -⟩ := hend
    replace hstuck : u.outcome = .stuckOn w := hstuck
    exact .inr ⟨hframe, hgrows, fun d => by simp [hstuck]⟩
  case some.ok => exact .inl ⟨a, u, rfl, hframe, hgrows⟩
  case some.err =>
    exact .inr ⟨hframe.trans (present_frame u _), hgrows.trans (present_growsWithoutDelay u _), fun d => by
      simp [ErrorKind.response]⟩

/-- The events of a write list that succeeds. -/
theorem writeAll_ok_trace {ws : List (Nat × Byte)} (h : writeAll ws s = (some (.ok ()), u)) :
    u.trace = s.trace ++ ws.map fun w => .write w.1 w.2 (.ok ()) := by
  induction ws generalizing s with
  | nil => cases h; simp
  | cons w ws ih =>
    obtain ⟨a, v⟩ := w
    rcases hans : s.writeAnswer a v with _ | (⟨⟩ | e)
    case none => simp [writeAll, tWrite_silent hans] at h
    case some.ok =>
      rw [writeAll_cons_ok hans] at h
      simp [ih h, State.afterWrite]
    case some.err => simp [writeAll_cons_err hans] at h

theorem settle_initEnds (s : State) : InitEnds W [.delay s.params.settleMs] s (settle s) := by
  cases hs : s.portSilent with
  | false =>
    rw [settle_of_answering hs]
    exact .inr ⟨⟨rfl, rfl, rfl, rfl, rfl, rfl, rfl, rfl, rfl, rfl, fun _ _ => rfl, id⟩, rfl, by simp⟩
  | true =>
    rw [settle, delay_of_silent hs, Reply.finish_silent]
    exact .inl ⟨⟨rfl, rfl, rfl, rfl, rfl, rfl, rfl, rfl, rfl, rfl, fun _ _ => rfl, id⟩,
      ⟨[], by simp, by simp⟩, by simp⟩

theorem configure_initEnds {c : BuiltConfig} (hW : ∀ w ∈ c.writes s.params, W w.1) :
    InitEnds W ((c.writes s.params).map (fun w => .write w.1 w.2 (.ok ())) ++ [.delay s.params.settleMs]) s
      (configure c s) := by
  rcases finish_ok_or_failed (fun _ s1 => settle s1) (writeAll_ran fun _ _ _ => by simp)
    (writeAll_ports _ s hW fun _ _ _ => trivial) with ⟨⟨⟩, u, hwrites, hframe, hgrows⟩ | hfailed
  · rw [configure_of_writes hwrites, ← hframe.params]
    exact .after hframe (hframe.params ▸ writeAll_ok_trace hwrites) hgrows (settle_initEnds u)
  · exact .inl hfailed

theorem initSequence_initEnds {c : BuiltConfig} (hW : ∀ w ∈ c.writes s.params, W w.1) :
    InitEnds W (.read s.params.idReg 1 (.ok [s.params.idExpected]) ::
      ((c.writes s.params).map (fun w => .write w.1 w.2 (.ok ())) ++ [.delay s.params.settleMs]))
      (s.setDev .uninitialized) (initSequence c s) := by
  rcases finish_ok_or_failed
    (fun b s1 => if b = s.params.idExpected then configure c s1 else s1.raise .identityMismatch)
    (tRead_ran fun _ => by simp) (tRead_ports (W := W) s.params.idReg (s.setDev .uninitialized) fun _ => trivial) with
    ⟨b, u, hread, hframe, hgrows⟩ | hfailed
  · have hparams : u.params = s.params := hframe.params
    rw [initSequence, hread, Reply.finish_ok]
    split
    · next hb =>
      subst hb
      have hconf := configure_initEnds (s := u) (c := c) (hparams ▸ hW)
      rw [hparams] at hconf
      exact hconf.after hframe (tRead_ok_trace hread) hgrows
    · exact .inl ⟨hframe.trans (present_frame u _), hgrows.trans (present_growsWithoutDelay u _), fun d => by
        simp [ErrorKind.response]⟩
  · exact .inl hfailed

end

/-! ### The fields that a request writes -/

/-- The registers of the chip that a request writes (40_transport.md R101, 41_config.md R132). -/
def writesReg (p : Params) : Instr → Nat → Prop
  | .wrreg addr _, a => a = addr.toNat
  | .devInit, a => a = p.regTiming ∨ a = p.regMeasure ∨ a = p.regPowerCtl
  | _, _ => False

/-- The state with the fields of `st` written as 10_state.md R27 lists them for the request `i`, when it is not refused
and its outcome is `o`. -/
def State.written (s : State) (i : Instr) (o : ReqOutcome) : State :=
  match i with
  | .cfgNew => s.setStg Settings.default
  | .cfgOdr c => s.setStg { s.stg with odr := c }
  | .cfgBw c => s.setStg { s.stg with bw := c }
  | .cfgPmode c => s.setStg { s.stg with mode := c }
  | .cfgHpf b => s.setStg { s.stg with hpfEn := b }
  | .cfgLpf b => s.setStg { s.stg with lpfEn := b }
  | .cfgBuild => s.setCfg (if legal s.stg then some (build s.stg) else none)
  | .devNew => (s.setDevCfg s.cfg).setDev .uninitialized
  | .devInit => s.setDev (if o = .responded (.ok []) then .ready else .uninitialized)
  | .devDrop => (s.setDev .noDevice).setDevCfg none
  | .rdreg _ | .wrreg _ _ | .rdburst _ _ | .devReadxyz | .convRaw _ _ _ _ _ _ | .scale _ _ _ => s

theorem Frame.setDev_setDev {W : Nat → Prop} {s t : State} {d e : DevState} (h : Frame W ((s.setDev d).setDev e) t) :
    Frame W (s.setDev e) t := h

theorem writesReg_devInit {p : Params} {c : BuiltConfig} : ∀ w ∈ c.writes p, writesReg p .devInit w.1 := by
  intro w hw
  simp only [BuiltConfig.writes, List.mem_cons, List.not_mem_nil, or_false] at hw
  rcases hw with rfl | rfl | rfl
  · exact .inl rfl
  · exact .inr (.inl rfl)
  · exact .inr (.inr rfl)

/-- 10_state.md R27, the column "written by", over every request that is not refused. -/
theorem exec_frame {i : Instr} {s t : State} (hr : refusalOf i s = none) (h : exec i s = .next t) :
    Frame (writesReg s.params i) (s.written i t.outcome) t := by
  cases i with
  | rdreg addr =>
    have hd : s.dev = .noDevice := by simpa [refusalOf] using hr
    cases (exec_rdreg_noDevice hd addr).symm.trans h
    change Frame _ s _
    exact finish_frame (tRead_ports (P := fun _ => True) _ s fun _ => trivial).frame fun _ u => present_frame u _
  | wrreg addr data =>
    have hd : s.dev = .noDevice := by simpa [refusalOf] using hr
    cases (exec_wrreg_noDevice hd addr data).symm.trans h
    change Frame (fun a => a = addr.toNat) s _
    have hports := tWrite_ports (P := fun _ => True) (W := fun a => a = addr.toNat) _ data s rfl fun _ => trivial
    exact finish_frame hports.frame fun _ u => present_frame u _
  | rdburst addr n =>
    have hd : s.dev = .noDevice := by simpa [refusalOf] using hr
    cases (exec_rdburst_noDevice hd addr n).symm.trans h
    change Frame _ s _
    exact finish_frame (tBurst_ports (P := fun _ => True) _ _ s (fun _ => trivial) fun _ _ _ => trivial).frame
      fun _ u => present_frame u _
  | cfgNew => cases h; exact present_frame _ _
  | cfgOdr code => cases h; exact present_frame _ _
  | cfgBw code => cases h; exact present_frame _ _
  | cfgPmode code => cases h; exact present_frame _ _
  | cfgHpf enabled => cases h; exact present_frame _ _
  | cfgLpf enabled => cases h; exact present_frame _ _
  | cfgBuild =>
    cases hl : legal s.stg with
    | true =>
      cases (exec_cfgBuild_legal hl).symm.trans h
      simp only [State.written, if_pos hl]
      exact present_frame _ _
    | false =>
      cases (exec_cfgBuild_illegal hl).symm.trans h
      simp only [State.written, hl, Bool.false_eq_true, if_false]
      exact present_frame _ _
  | devNew =>
    obtain ⟨hd, c, hc⟩ := refusalOf_devNew_none hr
    cases (exec_devNew_built hd hc).symm.trans h
    simp only [State.written, hc]
    exact present_frame _ _
  | devInit =>
    obtain ⟨c, -, rfl⟩ := exec_devInit_next hr h
    rcases initSequence_initEnds (s := s) (c := c) writesReg_devInit with ⟨hframe, -, hnot⟩ | ⟨hframe, hok, -⟩
    · simpa only [State.written, if_neg (hnot [])] using hframe
    · simpa only [State.written, if_pos hok] using hframe.setDev_setDev
  | devReadxyz =>
    cases hd : s.dev with
    | noDevice => simp [refusalOf, hd] at hr
    | uninitialized =>
      cases (exec_devReadxyz_uninitialized hd).symm.trans h
      exact present_frame _ _
    | ready =>
      cases (exec_devReadxyz_ready hd).symm.trans h
      change Frame _ s _
      exact finish_frame (tBurst_ports (P := fun _ => True) _ _ s (fun _ => trivial) fun _ _ _ => trivial).frame
        fun _ u => present_frame u _
  | devDrop =>
    have hd : s.dev ≠ .noDevice := by simpa [refusalOf] using hr
    cases (exec_devDrop_device hd).symm.trans h
    exact present_frame _ _
  | convRaw p0 p1 p2 p3 p4 p5 => cases h; exact present_frame s _
  | scale x y z => cases h; exact present_frame s _

end Sys2Proof.Machine
end

section
/-! PROOF. The rules over all requests (10_state.md R27, 42_device.md R171 and R172, 60_exceptions.md R206 to R209),
each from `exec_refused`, `exec_ended` and `exec_frame`. -/

namespace Sys2Proof.Machine

/-! ### The fields of `State.written` -/

section
variable (s : State) (i : Instr) (o : ReqOutcome)

@[simp] theorem State.written_refused : (s.written i o).refused = s.refused := by cases i <;> rfl
@[simp] theorem State.written_params : (s.written i o).params = s.params := by cases i <;> rfl
@[simp] theorem State.written_requests : (s.written i o).requests = s.requests := by cases i <;> rfl
@[simp] theorem State.written_oracle : (s.written i o).oracle = s.oracle := by cases i <;> rfl
@[simp] theorem State.written_simFaults : (s.written i o).simFaults = s.simFaults := by cases i <;> rfl
@[simp] theorem State.written_silentAt : (s.written i o).silentAt = s.silentAt := by cases i <;> rfl
@[simp] theorem State.written_simRegs : (s.written i o).simRegs = s.simRegs := by cases i <;> rfl

variable {s i o}

theorem State.written_odr (h : (s.written i o).stg.odr ≠ s.stg.odr) : i = .cfgNew ∨ ∃ c, i = .cfgOdr c := by
  cases i with
  | cfgNew => exact .inl rfl
  | cfgOdr c => exact .inr ⟨c, rfl⟩
  | _ => exact absurd rfl h

theorem State.written_bw (h : (s.written i o).stg.bw ≠ s.stg.bw) : i = .cfgNew ∨ ∃ c, i = .cfgBw c := by
  cases i with
  | cfgNew => exact .inl rfl
  | cfgBw c => exact .inr ⟨c, rfl⟩
  | _ => exact absurd rfl h

theorem State.written_mode (h : (s.written i o).stg.mode ≠ s.stg.mode) : i = .cfgNew ∨ ∃ c, i = .cfgPmode c := by
  cases i with
  | cfgNew => exact .inl rfl
  | cfgPmode c => exact .inr ⟨c, rfl⟩
  | _ => exact absurd rfl h

theorem State.written_hpfEn (h : (s.written i o).stg.hpfEn ≠ s.stg.hpfEn) : i = .cfgNew ∨ ∃ b, i = .cfgHpf b := by
  cases i with
  | cfgNew => exact .inl rfl
  | cfgHpf b => exact .inr ⟨b, rfl⟩
  | _ => exact absurd rfl h

theorem State.written_lpfEn (h : (s.written i o).stg.lpfEn ≠ s.stg.lpfEn) : i = .cfgNew ∨ ∃ b, i = .cfgLpf b := by
  cases i with
  | cfgNew => exact .inl rfl
  | cfgLpf b => exact .inr ⟨b, rfl⟩
  | _ => exact absurd rfl h

theorem State.written_dev (h : (s.written i o).dev ≠ s.dev) : i = .devNew ∨ i = .devInit ∨ i = .devDrop := by
  cases i with
  | devNew => exact .inl rfl
  | devInit => exact .inr (.inl rfl)
  | devDrop => exact .inr (.inr rfl)
  | _ => exact absurd rfl h

/-- A register of the simulator that a request writes. -/
theorem writesReg_cases {p : Params} {a : Nat} (h : writesReg p i a) :
    (∃ addr data, i = .wrreg addr data ∧ a = addr.toNat) ∨
    (i = .devInit ∧ (a = p.regTiming ∨ a = p.regMeasure ∨ a = p.regPowerCtl)) := by
  cases i with
  | wrreg addr data => exact .inl ⟨addr, data, rfl, h⟩
  | devInit => exact .inr ⟨rfl, h⟩
  | _ => exact h.elim

end

/-! ### Refusals -/

/-- A request that is not refused ends with a response or a wait. -/
theorem State.Ended.not_refusedFor {P : Event → Prop} {n : Nat} {s t : State} (h : State.Ended P n s t)
    (why : RefusalReason) : t.outcome ≠ .refusedFor why := by
  obtain ⟨-, -, -, ⟨x, hx, -⟩ | ⟨w, hw, -⟩⟩ := h
  · simp [hx]
  · simp [hw]

/-- A request that answers `BUS_ERROR`: the failed transaction and the response are its last two events. -/
theorem State.Ended.busError {P : Event → Prop} {n : Nat} {s t : State} {e : BusErr} (h : State.Ended P n s t)
    (he : t.outcome = .responded (.busError e)) : ∃ fs y, t.trace = s.trace ++ fs ++ [y, .response (.busError e)] ∧
      y.fault = some e ∧ ∀ z ∈ fs, z.fault = none := by
  obtain ⟨es, -, -, ⟨x, hx, htrace, hfault⟩ | ⟨w, hw, -⟩⟩ := h
  · obtain rfl : x = .busError e := by simpa [hx] using he
    obtain ⟨fs, y, rfl, hy, hfs⟩ := hfault
    exact ⟨fs, y, by simp [htrace], hy, hfs⟩
  · simp [hw] at he

/-- Settles O53: a refused request is `exec_refused`; any other keeps the mark and ends. -/
theorem refusalsAreExactlyTheListedOnes : Obligations.RefusalsAreExactlyTheListedOnes := fun i s =>
  ⟨fun _ hwhy => exec_refused hwhy, fun _ hr h =>
    ⟨(exec_frame hr h).refused.trans (s.written_refused i _), (exec_ended hr h).not_refusedFor⟩⟩

/-! ### Who writes what -/

/-- Settles O55: a refused request writes none of the fields but the mark; any other writes what `State.written` and
`writesReg` say. The two configs are O42. -/
theorem fieldsAreWrittenByTheirRequestsOnly : Obligations.FieldsAreWrittenByTheirRequestsOnly := by
  intro i s t h
  have hconfigs := configsAreCopiesAndImmutable i s t h
  have hcfg : t.cfg ≠ s.cfg → i = .cfgBuild := fun hne => (hconfigs.2 hne).1
  have hdevCfg : t.devCfg ≠ s.devCfg → i = .devNew ∨ i = .devDrop := fun hne =>
    (hconfigs.1 hne).imp And.left And.left
  rcases refused_or_not h with ⟨why, -, rfl⟩ | hr
  · exact ⟨fun hne => absurd rfl hne, fun hne => absurd rfl hne, fun hne => absurd rfl hne, fun hne => absurd rfl hne,
      fun hne => absurd rfl hne, hcfg, fun hne => absurd rfl hne, hdevCfg, fun _ => ⟨why, rfl⟩, rfl, rfl, rfl, rfl,
      rfl, fun _ hne => absurd rfl hne⟩
  · have hframe := exec_frame hr h
    refine ⟨fun hne => State.written_odr (hframe.stg ▸ hne), fun hne => State.written_bw (hframe.stg ▸ hne),
      fun hne => State.written_mode (hframe.stg ▸ hne), fun hne => State.written_hpfEn (hframe.stg ▸ hne),
      fun hne => State.written_lpfEn (hframe.stg ▸ hne), hcfg, fun hne => State.written_dev (hframe.dev ▸ hne),
      hdevCfg, fun hne => ?_, by simpa using hframe.params, by simpa using hframe.requests,
      by simpa using hframe.oracle, by simpa using hframe.simFaults, by simpa using hframe.silentAt, fun a hne => ?_⟩
    · exact absurd (by simpa using hframe.refused) hne
    · by_contra hnot
      exact hne (by simpa using hframe.simRegs a fun hw => hnot (writesReg_cases hw))

/-- Settles O41: a refusal leaves the device; the requests whose row of `State.written` has a device state write what
the table says. -/
theorem deviceTransitionsFollowTheTable : Obligations.DeviceTransitionsFollowTheTable := by
  intro i s t h hne
  rcases refused_or_not h with ⟨why, -, rfl⟩ | hr
  · exact absurd rfl hne
  have hdev := (exec_frame hr h).dev
  rcases State.written_dev (hdev ▸ hne) with rfl | rfl | rfl
  · exact .inl ⟨rfl, (refusalOf_devNew_none hr).1, hdev⟩
  · have hexists := refusalOf_devInit_none hr
    by_cases hok : t.outcome = .responded (.ok [])
    · simp only [State.written, if_pos hok, State.setDev_dev] at hdev
      refine .inr (.inl ⟨rfl, ?_, hdev, hok⟩)
      cases hs : s.dev with
      | noDevice => exact absurd hs hexists
      | uninitialized => rfl
      | ready => exact absurd (hdev.trans hs.symm) hne
    · simp only [State.written, if_neg hok, State.setDev_dev] at hdev
      refine .inr (.inr (.inl ⟨rfl, ?_, hdev, hok⟩))
      cases hs : s.dev with
      | noDevice => exact absurd hs hexists
      | uninitialized => exact absurd (hdev.trans hs.symm) hne
      | ready => rfl
  · exact .inr (.inr (.inr ⟨rfl, by simpa [refusalOf] using hr, hdev⟩))

/-- Settles O37: by the transitions of O41 a device that is newly `Ready` comes from `DEV_INIT`, and the sequence
answers `OK` only after all of its events. -/
theorem readyMeansTheWholeSequenceRan : Obligations.ReadyMeansTheWholeSequenceRan := by
  intro i s t h hready
  by_cases hi : i = .devInit
  · subst hi
    rcases refused_or_not h with ⟨why, hwhy, rfl⟩ | hr
    · have hnot : s.dev = .ready := hready
      simp [refusalOf, hnot] at hwhy
    · obtain ⟨c, hc, rfl⟩ := exec_devInit_next hr h
      rcases initSequence_initEnds (s := s) (c := c) writesReg_devInit with ⟨hframe, -⟩ | ⟨hframe, -, htrace⟩
      · exact absurd (hready.symm.trans hframe.dev) (by simp)
      · refine .inr ⟨rfl, c, hc, hframe.devCfg.trans hc, ?_⟩
        rw [htrace]
        simp [BuiltConfig.writes, ConfReg.addr]
  · refine .inl ⟨?_, hi⟩
    by_contra hs
    rcases deviceTransitionsFollowTheTable i s t h (fun heq => hs (heq ▸ hready)) with
      ⟨-, -, hdev⟩ | ⟨rfl, -⟩ | ⟨rfl, -⟩ | ⟨-, -, hdev⟩
    · exact absurd (hready.symm.trans hdev) (by simp)
    · exact hi rfl
    · exact hi rfl
    · exact absurd (hready.symm.trans hdev) (by simp)

/-- Settles O52: by O51 an error comes from a request that uses the ports, which writes no field of `st` but the
device's state in `DEV_INIT`, or is the `INVALID_CONFIG` of `CFG_BUILD`. -/
theorem errorsWriteOnlyWhatTheyList : Obligations.ErrorsWriteOnlyWhatTheyList := by
  intro i s t x h hx herr
  have hr : refusalOf i s = none := by
    rcases refused_or_not h with ⟨why, -, rfl⟩ | hr
    · exact absurd hx refuse_not_responded
    · exact hr
  have hframe := exec_frame hr h
  have hcause : (i.usesPorts = true ∧ x ≠ .invalidConfig) ∨
      (x = .invalidConfig ∧ i = .cfgBuild ∧ legal s.stg = false) := by
    rcases errorsHaveTheirListedCauses i s t x h hx with
      ⟨d, hd⟩ | ⟨e, rfl, hports, -⟩ | ⟨rfl, rfl, -⟩ | ⟨rfl, rfl, hl, -⟩ | ⟨rfl, rfl, -⟩
    · exact absurd hd (herr d)
    · exact .inl ⟨hports, by simp⟩
    · exact .inl ⟨rfl, by simp⟩
    · exact .inr ⟨rfl, rfl, hl⟩
    · exact .inl ⟨rfl, by simp⟩
  rcases hcause with ⟨hports, hstatus⟩ | ⟨rfl, rfl, hillegal⟩
  · rw [if_neg hstatus]
    cases i with
    | devInit =>
      have hnot : t.outcome ≠ .responded (.ok []) := fun hok => herr [] (by simpa [hx] using hok)
      refine ⟨hframe.stg, hframe.devCfg, hframe.refused, hframe.cfg, ?_⟩
      rw [if_pos rfl]
      simpa only [State.written, if_neg hnot, State.setDev_dev] using hframe.dev
    | rdreg addr => exact ⟨hframe.stg, hframe.devCfg, hframe.refused, hframe.cfg, hframe.dev⟩
    | wrreg addr data => exact ⟨hframe.stg, hframe.devCfg, hframe.refused, hframe.cfg, hframe.dev⟩
    | rdburst addr n => exact ⟨hframe.stg, hframe.devCfg, hframe.refused, hframe.cfg, hframe.dev⟩
    | devReadxyz => exact ⟨hframe.stg, hframe.devCfg, hframe.refused, hframe.cfg, hframe.dev⟩
    | _ => simp [Instr.usesPorts] at hports
  · refine ⟨hframe.stg, hframe.devCfg, hframe.refused, ?_, hframe.dev⟩
    simpa [State.written, hillegal] using hframe.cfg

/-- Settles O36: the sequence leaves `Uninitialized` unless it answers `OK`; by `exec_ended` a bus fault is that of the
last transaction and of no other, and a part of the sequence that fails issued no delay. -/
theorem failedInitLeavesUninitialized : Obligations.FailedInitLeavesUninitialized := by
  intro s t hd h
  have hr : refusalOf .devInit s = none := by simpa [refusalOf] using hd
  refine ⟨fun hnot => ?_, fun e he => ?_⟩
  · simpa only [State.written, if_neg hnot, State.setDev_dev] using (exec_frame hr h).dev
  · obtain ⟨fs, y, htrace, hy, hfs⟩ := (exec_ended hr h).busError he
    obtain ⟨c, -, rfl⟩ := exec_devInit_next hr h
    refine ⟨fs, y, htrace, hy, fun z hz => ⟨hfs z hz, ?_⟩⟩
    rintro ms rfl
    rcases initSequence_initEnds (s := s) (c := c) writesReg_devInit with ⟨-, ⟨es, hes, hno⟩, -⟩ | ⟨-, hok, -⟩
    · refine hno ms ?_
      have heq : es = fs ++ [y, .response (.busError e)] := by
        refine List.append_cancel_left (as := s.trace) ?_
        rw [← List.append_assoc, ← htrace]
        exact hes.symm
      simp [heq, hz]
    · simp [he] at hok

/-! ### Port events -/

theorem Trace.portEvents_le_length (es : Trace) : Trace.portEvents es ≤ es.length := List.countP_le_length

theorem State.Ended.trace {P : Event → Prop} {n : Nat} {s t : State} (h : State.Ended P n s t) :
    ∃ es rs, t.trace = s.trace ++ (es ++ rs) ∧ es.length ≤ n ∧ (∀ e ∈ es, P e) ∧ ∀ e ∈ rs, ∃ x, e = .response x := by
  obtain ⟨es, hlen, hP, ⟨x, -, htrace, -⟩ | ⟨w, -, htrace, -⟩⟩ := h
  · exact ⟨es, [.response x], by simp [htrace], hlen, hP, by simp⟩
  · exact ⟨es, [], by simp [htrace], hlen, hP, by simp⟩

theorem portEvents_responses {rs : List Event} (h : ∀ e ∈ rs, ∃ x, e = .response x) : Trace.portEvents rs = 0 := by
  refine List.countP_eq_zero.mpr fun e he => ?_
  obtain ⟨x, rfl⟩ := h e he
  simp [Event.isPort]

/-- Settles O56: the events of a request that is not refused are at most its bound, and a response is none of a port. -/
theorem requestsHaveBoundedPortEvents : Obligations.RequestsHaveBoundedPortEvents := by
  intro i s t hwf h
  rcases refused_or_not h with ⟨why, -, rfl⟩ | hr
  · exact ⟨[], by simp, Nat.zero_le _, fun _ => rfl⟩
  · obtain ⟨es, rs, htrace, hlen, -, hrs⟩ := (exec_ended hr h).trace
    have hcount : Trace.portEvents (es ++ rs) ≤ eventBound i := by
      calc Trace.portEvents (es ++ rs) = Trace.portEvents es + Trace.portEvents rs := List.countP_append
        _ = Trace.portEvents es := by rw [portEvents_responses hrs, Nat.add_zero]
        _ ≤ es.length := Trace.portEvents_le_length es
        _ ≤ eventBound i := hlen
    refine ⟨es ++ rs, htrace, hcount.trans (eventBound_of_wf hwf).le, fun hno => ?_⟩
    exact Nat.le_zero.mp (hcount.trans (eventBound_of_no_ports hno).le)

end Sys2Proof.Machine
end

section
/-! PROOF. The invariant (10_state.md R24, R30, 41_config.md R131): it holds at reset, and taking a request, refusing it
and performing it keep it, so every reachable state has it; in a state with it a block that is not stuck has a step.
How a step ends (60_exceptions.md R206) is derived from the same lemmas about requests. -/

namespace Sys2Proof.Machine

/-- Settles O2: the decided parameters are legal, and everything else is absent at reset. -/
theorem resetSatisfiesTheInvariant : Obligations.ResetSatisfiesTheInvariant where
  params_wf := by
    change (Params.decided Config.variant).wf = true
    cases Config.variant <;> decide
  device_iff_config := iff_of_true rfl rfl
  cfg_wf _ h := by simp [State.reset] at h
  devCfg_wf _ h := by simp [State.reset] at h
  simRegs_wf := rfl
  simRegs_inside _ _ := rfl
  trace_legal _ h := by simp [State.reset] at h

/-! ### What keeps the invariant -/

section
variable {s t : State}

/-- The invariant speaks of the fields named here alone, and of the events in the trace. -/
theorem State.Inv.of_same (h : s.Inv) (hparams : t.params = s.params) (hdev : t.dev = s.dev)
    (hdevCfg : t.devCfg = s.devCfg) (hcfg : t.cfg = s.cfg) (hregs : t.simRegs = s.simRegs)
    (htrace : ∀ e ∈ t.trace, e ∈ s.trace ∨ e.legal s.params = true) : t.Inv where
  params_wf := hparams ▸ h.params_wf
  device_iff_config := by rw [hdev, hdevCfg]; exact h.device_iff_config
  cfg_wf := hcfg ▸ h.cfg_wf
  devCfg_wf := hdevCfg ▸ h.devCfg_wf
  simRegs_wf := hregs ▸ h.simRegs_wf
  simRegs_inside := by rw [hparams, hregs]; exact h.simRegs_inside
  trace_legal e he := by
    rw [hparams]
    exact (htrace e he).elim (h.trace_legal e) id

theorem State.Inv.accept (h : s.Inv) (r : Request) (rest : List Request) : (s.accept r rest).Inv := by
  refine h.of_same rfl rfl rfl rfl rfl fun e he => (List.mem_append.mp he).imp_right fun hr => ?_
  rw [List.mem_singleton.mp hr]
  rfl

theorem State.Inv.refuse (h : s.Inv) (why : RefusalReason) : (s.refuse why).Inv :=
  h.of_same rfl rfl rfl rfl rfl fun _ he => .inl he

theorem State.Inv.setRequests (h : s.Inv) (rs : List Request) : (s.setRequests rs).Inv :=
  h.of_same rfl rfl rfl rfl rfl fun _ he => .inl he

theorem build_wf {x : Settings} (h : legal x = true) : (build x).wf = true := by simp [BuiltConfig.wf, build, h]

/-- The requests write only built configs into the builder's slot. -/
theorem State.Inv.written_cfg (h : s.Inv) (i : Instr) (o : ReqOutcome) {c : BuiltConfig}
    (hc : (s.written i o).cfg = some c) : c.wf = true := by
  cases i with
  | cfgBuild =>
    cases hl : legal s.stg with
    | true =>
      obtain rfl : build s.stg = c := by simpa [State.written, hl] using hc
      exact build_wf hl
    | false => simp [State.written, hl] at hc
  | _ => exact h.cfg_wf c hc

/-- The device's config is the built config or the old one, so it is a built one. -/
theorem State.Inv.written_devCfg (h : s.Inv) (i : Instr) (o : ReqOutcome) {c : BuiltConfig}
    (hc : (s.written i o).devCfg = some c) : c.wf = true := by
  cases i with
  | devNew => exact h.cfg_wf c hc
  | devDrop => cases hc
  | _ => exact h.devCfg_wf c hc

/-- A request that is not refused writes the device and its config together, or `DEV_INIT` only moves between the states
of a device. -/
theorem State.Inv.written_device (h : s.Inv) {i : Instr} (o : ReqOutcome) (hr : refusalOf i s = none) :
    (s.written i o).dev = .noDevice ↔ (s.written i o).devCfg = none := by
  cases i with
  | devNew =>
    obtain ⟨-, c, hc⟩ := refusalOf_devNew_none hr
    simp [State.written, hc]
  | devInit =>
    have hcfg : s.devCfg ≠ none := fun hn => refusalOf_devInit_none hr (h.device_iff_config.mpr hn)
    refine iff_of_false ?_ hcfg
    simp only [State.written, State.setDev_dev]
    split <;> simp
  | devDrop => exact iff_of_true rfl rfl
  | _ => exact h.device_iff_config

/-- A well-formed request writes registers inside the register space. -/
theorem writesReg_inside {p : Params} {i : Instr} (hp : p.wf = true) (hwf : i.wf p = true) {a : Nat}
    (h : writesReg p i a) : a < p.space := by
  obtain ⟨-, -, -, htiming, hmeasure, hpower, -⟩ := Params.wf_iff.mp hp
  rcases writesReg_cases h with ⟨addr, data, rfl, rfl⟩ | ⟨-, rfl | rfl | rfl⟩
  · exact (addrFits_iff p addr).mp hwf
  · exact htiming
  · exact hmeasure
  · exact hpower

/-- A well-formed request keeps the invariant. -/
theorem State.Inv.exec {i : Instr} (hs : s.Inv) (hwf : i.wf s.params = true) (h : exec i s = .next t) : t.Inv := by
  rcases refused_or_not h with ⟨why, -, rfl⟩ | hr
  · exact hs.refuse why
  have hframe := exec_frame hr h
  have hparams : t.params = s.params := by simpa using hframe.params
  refine ⟨hparams ▸ hs.params_wf, ?_, fun c hc => hs.written_cfg i _ (hframe.cfg ▸ hc),
    fun c hc => hs.written_devCfg i _ (hframe.devCfg ▸ hc), hframe.simRegs_wf (by simpa using hs.simRegs_wf),
    fun a ha => ?_, fun e he => ?_⟩
  · rw [hframe.dev, hframe.devCfg]
    exact hs.written_device _ hr
  · rw [hparams] at ha
    have hnot : ¬ writesReg s.params i a := fun hw => absurd (writesReg_inside hs.params_wf hwf hw) (by omega)
    calc t.simRegs.read a = s.simRegs.read a := by simpa using hframe.simRegs a hnot
      _ = Memory.unlisted := hs.simRegs_inside a ha
  · obtain ⟨es, rs, htrace, -, hissued, hrs⟩ := (exec_ended hr h).trace
    rw [hparams]
    rw [htrace, List.mem_append, List.mem_append] at he
    rcases he with he | he | he
    · exact hs.trace_legal e he
    · exact (hissued e he).2 hs.params_wf hwf
    · obtain ⟨x, rfl⟩ := hrs e he
      rfl

end

/-! ### The step -/

/-- Settles O3: what the block takes from the port is refused, or is a well-formed request (O10) that `State.Inv.exec`
covers. -/
theorem stepKeepsTheInvariant : Obligations.StepKeepsTheInvariant := by
  intro s t hs h
  have htake := takeRequest_of_step h
  cases hreq : s.requests with
  | nil =>
    rw [takeRequest, hreq] at htake
    cases htake
    exact hs
  | cons r rest =>
    rw [takeRequest, hreq] at htake
    replace htake : perform r (s.accept r rest) = .next t := htake
    cases hdec : decode (s.accept r rest).params r with
    | error why =>
      rw [perform_reserved hdec] at htake
      cases htake
      exact (hs.accept r rest).refuse _
    | ok i =>
      rw [perform_ok hdec] at htake
      exact (hs.accept r rest).exec (encodeOfDecode _ _ _ hdec).1 htake

/-- With a device exactly when it has a config, every request has a next state. -/
theorem exec_has_next {s : State} (i : Instr) (hs : s.Inv) : ∃ t, exec i s = .next t := by
  cases i with
  | devInit =>
    by_cases hd : s.dev = .noDevice
    · exact ⟨_, exec_devInit_noDevice hd⟩
    · obtain ⟨c, hc⟩ := Option.ne_none_iff_exists'.mp fun hn => hd (hs.device_iff_config.mpr hn)
      exact ⟨_, exec_devInit_device hd hc⟩
  | _ => exact ⟨_, rfl⟩

/-- Settles O4: a reserved request is refused, and any other has a next state. -/
theorem unstuckStatesHaveAStep : Obligations.UnstuckStatesHaveAStep := by
  intro s hs hstuck
  cases hreq : s.requests with
  | nil => exact ⟨s, step_of_no_request hstuck hreq⟩
  | cons r rest =>
    rw [step_of_request hstuck hreq]
    cases hdec : decode (s.accept r rest).params r with
    | error why => exact ⟨_, perform_reserved hdec⟩
    | ok i =>
      rw [perform_ok hdec]
      exact exec_has_next i (hs.accept r rest)

/-! ### Waits -/

/-- A request that ends in a wait: its port is silent, and it has presented no response. -/
theorem State.Ended.stuckOn {P : Event → Prop} {n : Nat} {s t : State} {w : PortWait} (h : State.Ended P n s t)
    (hw : t.outcome = .stuckOn w) : t.portSilent = true ∧ ∃ es, t.trace = s.trace ++ es ∧ ∀ e ∈ es, P e := by
  obtain ⟨es, -, hP, ⟨x, hx, -⟩ | ⟨w', -, htrace, hsilent, -⟩⟩ := h
  · simp [hx] at hw
  · exact ⟨hsilent, es, htrace, hP⟩

theorem response_not_issued {p : Params} {i : Instr} {es : List Event} (h : ∀ e ∈ es, Issues p i e) (x : Response) :
    Event.response x ∉ es := fun hmem => absurd (h _ hmem).1 (by simp [Event.isPort])

theorem request_not_issued {p : Params} {i : Instr} {es : List Event} (h : ∀ e ∈ es, Issues p i e) (r : Request) :
    Event.request r ∉ es := fun hmem => absurd (h _ hmem).1 (by simp [Event.isPort])

/-- A request ends in a wait only when its port is silent, without a response. -/
theorem exec_stuckOn {i : Instr} {s t : State} {w : PortWait} (h : exec i s = .next t) (hw : t.outcome = .stuckOn w) :
    t.portSilent = true ∧ ∃ es, t.trace = s.trace ++ es ∧ ∀ x, Event.response x ∉ es := by
  rcases refused_or_not h with ⟨why, -, rfl⟩ | hr
  · simp at hw
  · obtain ⟨hsilent, es, htrace, hissued⟩ := (exec_ended hr h).stuckOn hw
    exact ⟨hsilent, es, htrace, response_not_issued hissued⟩

section
variable {s : State} (hs : s.portSilent = true)
include hs

theorem memRead_silent (a n : Nat) : memRead a n s = (none, s.stall (.read a n)) :=
  memRead_of_silent (s.readAnswer_silent a n hs)

theorem memWrite_silent (a : Nat) (v : Byte) : memWrite a v s = (none, s.stall (.write a v)) :=
  memWrite_of_silent (s.writeAnswer_silent a v hs)

/-- The fallback waits in its first read. -/
theorem seqRead_silent (a : Nat) {n : Nat} (hn : 1 ≤ n) : seqRead a n s = (none, s.stall (.read a 1)) := by
  induction n, hn using Nat.le_induction with
  | base => simp [seqRead, memRead_silent hs]
  | succ n _ ih => simp [seqRead, ih]

theorem tBurst_silent (a : Nat) {n : Nat} (hn : 1 ≤ n) :
    tBurst a n s = (none, s.stall (.read a (if s.params.framed then n else 1))) := by
  cases hf : s.params.framed with
  | true => rw [tBurst_framed hf, memRead_silent hs, if_pos rfl]
  | false => rw [tBurst_unframed hf, seqRead_silent hs a hn, if_neg (by simp)]

theorem initSequence_silent (c : BuiltConfig) :
    initSequence c s = (s.setDev .uninitialized).stall (.read s.params.idReg 1) := by
  have hs' : (s.setDev .uninitialized).portSilent = true := hs
  rw [initSequence, tRead_silent ((s.setDev .uninitialized).readAnswer_silent _ 1 hs'), Reply.finish_silent]

end

/-- Settles O18: the port operations on a silent port, the wait of any request by `exec_stuckOn`, and each request that
begins with such an operation. -/
theorem silentPortsLeaveTheBlockStuck : Obligations.SilentPortsLeaveTheBlockStuck := by
  refine ⟨fun s a n hs => memRead_silent hs a n, fun s a v hs => memWrite_silent hs a v, fun s ms => delay_of_silent,
    fun i s t w h hw => ?wait, fun s addr hd hs => ?rdreg, fun s addr data hd hs => ?wrreg,
    fun s addr n hd hs hn => ?rdburst, fun s hd hs => ?readxyz, fun s c hd hc hs => ?init⟩
  case wait =>
    obtain ⟨hsilent, hquiet⟩ := exec_stuckOn h hw
    exact ⟨hsilent, step_of_stuckOn hw, hquiet⟩
  case rdreg =>
    rw [exec_rdreg_noDevice hd, tRead_silent (s.readAnswer_silent _ 1 hs), Reply.finish_silent]
    rfl
  case wrreg =>
    rw [exec_wrreg_noDevice hd, tWrite_silent (s.writeAnswer_silent _ _ hs), Reply.finish_silent]
    rfl
  case rdburst =>
    rw [exec_rdburst_noDevice hd, tBurst_silent hs _ hn, Reply.finish_silent]
    rfl
  case readxyz =>
    rw [exec_devReadxyz_ready hd, tBurst_silent hs _ (by omega), Reply.finish_silent]
    rfl
  case init =>
    rw [exec_devInit_device hd hc, initSequence_silent hs]
    rfl

/-! ### Every step that takes a request -/

/-- The ends of a request that is performed (60_exceptions.md section 2). -/
theorem exec_ends {i : Instr} {s t : State} (h : exec i s = .next t) :
    ∃ es : List Event, t.trace = s.trace ++ es ∧ (∀ q, Event.request q ∉ es) ∧
      ((∃ (x : Response) (fs : List Event), t.outcome = .responded x ∧ es = fs ++ [.response x] ∧
          ∀ y, Event.response y ∉ fs) ∨
       (∃ why, t.outcome = .refusedFor why ∧ es = []) ∨
       (∃ w, t.outcome = .stuckOn w ∧ ∀ y, Event.response y ∉ es)) := by
  rcases refused_or_not h with ⟨why, -, rfl⟩ | hr
  · exact ⟨[], by simp, by simp, .inr (.inl ⟨why, rfl, rfl⟩)⟩
  · obtain ⟨es, -, hissued, ⟨x, hx, htrace, -⟩ | ⟨w, hw, htrace, -⟩⟩ := exec_ended hr h
    · refine ⟨es ++ [.response x], by simp [htrace], fun q hq => ?_,
        .inl ⟨x, es, hx, rfl, response_not_issued hissued⟩⟩
      simp [request_not_issued hissued q] at hq
    · exact ⟨es, htrace, request_not_issued hissued, .inr (.inr ⟨w, hw, response_not_issued hissued⟩)⟩

/-- Settles O8: the request is recorded when it is taken; a reserved one is refused, any other ends as `exec_ends`
says. -/
theorem stepEndsTheRequestItTakes : Obligations.StepEndsTheRequestItTakes := by
  intro s t r rest hstuck hreq h
  rw [step_of_request hstuck hreq] at h
  cases hdec : decode (s.accept r rest).params r with
  | error why =>
    rw [perform_reserved hdec] at h
    cases h
    exact ⟨rfl, [], rfl, by simp, .inr (.inl ⟨_, rfl, rfl⟩)⟩
  | ok i =>
    rw [perform_ok hdec] at h
    obtain ⟨-, -, -, -, -, -, -, -, -, -, hrequests, -⟩ := fieldsAreWrittenByTheirRequestsOnly _ _ _ h
    obtain ⟨es, htrace, hnoreq, hend⟩ := exec_ends h
    exact ⟨hrequests, es, by simp [htrace], hnoreq, hend⟩

/-! ### Reachable states -/

/-- No port is ever silent in a run from reset (log 7): `silentAt` is none there and no step writes it, so no step ends
in a wait. -/
theorem reachable_answering {s : State} (h : Reachable s) : s.silentAt = none ∧ s.stuck = false := by
  induction h with
  | reset => exact ⟨rfl, rfl⟩
  | host s rs _ ih => exact ih
  | step s t _ hstep ih =>
    obtain ⟨hsilent, hstuck⟩ := ih
    cases hreq : s.requests with
    | nil =>
      cases (step_of_no_request hstuck hreq).symm.trans hstep
      exact ⟨hsilent, hstuck⟩
    | cons r rest =>
      rw [step_of_request hstuck hreq] at hstep
      cases hdec : decode (s.accept r rest).params r with
      | error why =>
        rw [perform_reserved hdec] at hstep
        cases hstep
        exact ⟨hsilent, rfl⟩
      | ok i =>
        rw [perform_ok hdec] at hstep
        obtain ⟨-, -, -, -, -, -, -, -, -, -, -, -, -, hkept, -⟩ := fieldsAreWrittenByTheirRequestsOnly _ _ _ hstep
        have hnone : t.silentAt = none := hkept.trans hsilent
        refine ⟨hnone, ?_⟩
        cases ho : t.outcome with
        | stuckOn w =>
          obtain ⟨hport, -⟩ := exec_stuckOn hstep ho
          simp [State.portSilent, hnone] at hport
        | pending => simp [State.stuck, ho]
        | responded x => simp [State.stuck, ho]
        | refusedFor why => simp [State.stuck, ho]

theorem reachable_inv {s : State} (h : Reachable s) : s.Inv := by
  induction h with
  | reset => exact resetSatisfiesTheInvariant
  | host s rs _ ih => exact ih.setRequests rs
  | step s t _ hstep ih => exact stepKeepsTheInvariant s t ih hstep

/-- Settles O5: O2 and O3 over the run, and O4 with no silent port. -/
theorem reachableStatesAreSoundAndHaveAStep : Obligations.ReachableStatesAreSoundAndHaveAStep := fun s h =>
  ⟨reachable_inv h, unstuckStatesHaveAStep s (reachable_inv h) (reachable_answering h).2⟩

end Sys2Proof.Machine
end

section
/-! PROOF. The register map (41_config.md R120 to R134): fields that do not overlap, packed bytes as numbers, unpacking,
and legality in Hz. -/

namespace Sys2Proof

/-! ### Fields of a byte -/

theorem Field.get_put_toNat (f : Field) (v : Byte) : (f.get (f.put v)).toNat = v.toNat % 2 ^ f.pos.width := by
  cases f <;> (revert v; decide)

/-- What a field holds, put back in its place, is the byte with every other field cleared. -/
theorem Field.put_get (f : Field) (b : Byte) : f.put (f.get b) = b &&& f.pos.mask := by
  cases f <;> (revert b; decide)

/-- Different fields of one register have no bit in common. -/
theorem Field.masks_disjoint {f g : Field} (hne : f ≠ g) (hreg : f.pos.reg = g.pos.reg) :
    g.pos.mask &&& f.pos.mask = 0 := by
  revert hne hreg
  cases f <;> cases g <;> decide

theorem Field.get_or (f : Field) (x y : Byte) : f.get (x ||| y) = f.get x ||| f.get y := by
  simp only [Field.get, BitVec.and_or_distrib_right, BitVec.ushiftRight_or_distrib]

/-- A field reads 0 where another field of its register was put. -/
theorem Field.get_put_other {f g : Field} (hne : f ≠ g) (hreg : f.pos.reg = g.pos.reg) (w : Byte) :
    f.get (g.put w) = 0 := by
  simp [Field.get, Field.put, BitVec.and_assoc, Field.masks_disjoint hne hreg]

/-- Settles O25: the table and the definitions as they stand, and the two inferences from the masks. -/
theorem maskAndShiftFieldsAreIndependent : Obligations.MaskAndShiftFieldsAreIndependent := by
  refine ⟨⟨rfl, rfl, rfl, rfl, rfl⟩, fun _ _ => ⟨rfl, rfl⟩, Field.get_put_toNat, fun f g v w hne hreg => ?_⟩
  rw [Field.get_or, Field.get_put_other hne hreg]
  simp

/-! ### Packed bytes -/

theorem Odr.code_le (o : Odr) : o.code.toNat ≤ 4 := by cases o <;> decide
theorem Bw.code_le (b : Bw) : b.code.toNat ≤ 4 := by cases b <;> decide
theorem PMode.code_le (m : PMode) : m.code.toNat ≤ 3 := by cases m <;> decide

theorem disableBit_toNat (b : Bool) : (disableBit b).toNat = if b then 0 else 1 := by cases b <;> rfl

theorem pack_timing_toNat (s : Settings) : (pack s).timing.toNat = s.odr.code.toNat * 32 := by
  change (Field.odr.put s.odr.code).toNat = s.odr.code.toNat * 32
  cases s.odr <;> decide

theorem pack_measure_toNat (s : Settings) : (pack s).measure.toNat = s.bw.code.toNat := by
  change (Field.bandwidth.put s.bw.code).toNat = s.bw.code.toNat
  cases s.bw <;> decide

theorem pack_powerCtl_toNat (s : Settings) : (pack s).powerCtl.toNat =
    (disableBit s.lpfEn).toNat * 8 + (disableBit s.hpfEn).toNat * 4 + s.mode.code.toNat := by
  change (Field.mode.put s.mode.code ||| Field.hpfDisable.put (disableBit s.hpfEn) |||
    Field.lpfDisable.put (disableBit s.lpfEn)).toNat = _
  cases s.mode <;> cases s.hpfEn <;> cases s.lpfEn <;> decide

/-- The named field that a bit of a register belongs to (41_config.md R126 to R128). -/
def ConfReg.fieldAt : ConfReg → Nat → ChipField
  | .timing, k => if k < 1 then .extSync else if k < 2 then .extClk else if k < 5 then .wakeupRate else .odr
  | .measure, k =>
    if k < 3 then .bandwidth else if k < 4 then .lowNoise else if k < 6 then .linkloop else if k < 7 then .autosleep
    else .userOrDisable
  | .powerCtl, k =>
    if k < 2 then .mode else if k < 3 then .hpfDisable else if k < 4 then .lpfDisable else if k < 5 then .filSettle
    else if k < 6 then .instantOnThresh else if k < 7 then .reserved6 else .i2cHsmEn

/-- The field of a bit is the only one that covers it. -/
theorem ConfReg.fieldAt_unique (g : ConfReg) (f : ChipField) :
    ∀ k < 8, (f.pos.reg = g ∧ f.pos.lo ≤ k ∧ k < f.pos.lo + f.pos.width ↔ f = g.fieldAt k) := by
  cases g <;> cases f <;> decide

/-- A field of a packed byte is what the layout tables say: each byte is a sum of fields at their places. -/
theorem pack_field (s : Settings) (f : ChipField) :
    ((pack s).byte f.pos.reg).toNat / 2 ^ f.pos.lo % 2 ^ f.pos.width = f.written s := by
  have hodr := s.odr.code_le
  have hbw := s.bw.code_le
  have hmode := s.mode.code_le
  have hhpf : (disableBit s.hpfEn).toNat ≤ 1 := by rw [disableBit_toNat]; split <;> omega
  have hlpf : (disableBit s.lpfEn).toNat ≤ 1 := by rw [disableBit_toNat]; split <;> omega
  cases f <;>
    simp only [ChipField.pos, ChipField.written, Packed.byte, pack_timing_toNat, pack_measure_toNat,
      pack_powerCtl_toNat, ← disableBit_toNat] <;>
    omega

/-- Settles O24: each bit has the one field that `ConfReg.fieldAt` names, and the packed bytes are read as numbers. -/
theorem packedBytesFollowTheLayouts : Obligations.PackedBytesFollowTheLayouts := by
  refine ⟨fun g k hk => ⟨g.fieldAt k, ?_, fun f hf => ?_⟩, pack_field⟩
  · exact (ConfReg.fieldAt_unique g _ k hk).mpr rfl
  · exact (ConfReg.fieldAt_unique g f k hk).mp hf

/-! ### Unpacking -/

theorem Field.get_mode_le (b : Byte) : (Field.mode.get b).toNat ≤ 3 := by revert b; decide

/-- What `unpack` reads, where it answers (41_config.md R134). -/
theorem unpack_eq_some_iff {k : Packed} {s : Settings} : unpack k = some s ↔
    Odr.ofCode (Field.odr.get k.timing) = some s.odr ∧ Bw.ofCode (Field.bandwidth.get k.measure) = some s.bw ∧
    PMode.ofCode (Field.mode.get k.powerCtl) = some s.mode ∧
    s.hpfEn = decide (Field.hpfDisable.get k.powerCtl = 0) ∧
    s.lpfEn = decide (Field.lpfDisable.get k.powerCtl = 0) := by
  obtain ⟨o, b, m, h, l⟩ := s
  unfold unpack
  split
  · next ho hb hm =>
    rw [ho, hb, hm]
    simp only [Option.some.injEq, Settings.mk.injEq, eq_comm]
  · next hnot =>
    refine iff_of_false (by simp) ?_
    rintro ⟨ho, hb, hm, -⟩
    exact hnot _ _ _ ho hb hm

/-- The mode bits always name a mode, so only the other two codes can be reserved. -/
theorem unpack_eq_none_iff (k : Packed) :
    unpack k = none ↔ 4 < (Field.odr.get k.timing).toNat ∨ 4 < (Field.bandwidth.get k.measure).toNat := by
  rw [← Odr.ofCode_none, ← Bw.ofCode_none]
  have hmode : PMode.ofCode (Field.mode.get k.powerCtl) ≠ none := by
    rw [Ne, PMode.ofCode_none]
    have := Field.get_mode_le k.powerCtl
    omega
  unfold unpack
  split
  · next ho hb hm => simp [ho, hb]
  · next hnot =>
    refine iff_of_true rfl ?_
    by_contra! hcodes
    obtain ⟨ho, hb⟩ := hcodes
    obtain ⟨o, ho⟩ := Option.ne_none_iff_exists'.mp ho
    obtain ⟨b, hb⟩ := Option.ne_none_iff_exists'.mp hb
    obtain ⟨m, hm⟩ := Option.ne_none_iff_exists'.mp hmode
    exact hnot o b m ho hb hm

/-- The codes and the disable bits of what `unpack` answers are the fields of the bytes. -/
theorem unpack_fields {k : Packed} {s : Settings} (h : unpack k = some s) :
    s.odr.code = Field.odr.get k.timing ∧ s.bw.code = Field.bandwidth.get k.measure ∧
    s.mode.code = Field.mode.get k.powerCtl ∧ (s.hpfEn = true ↔ Field.hpfDisable.get k.powerCtl = 0) ∧
    (s.lpfEn = true ↔ Field.lpfDisable.get k.powerCtl = 0) := by
  obtain ⟨ho, hb, hm, hhpf, hlpf⟩ := unpack_eq_some_iff.mp h
  refine ⟨Odr.code_of_ofCode ho, Bw.code_of_ofCode hb, PMode.code_of_ofCode hm, ?_, ?_⟩
  · rw [hhpf, decide_eq_true_iff]
  · rw [hlpf, decide_eq_true_iff]

/-- A value of the field's width is read back from its place. -/
theorem Field.get_put_of_lt {f : Field} {v : Byte} (h : v.toNat < 2 ^ f.pos.width) : f.get (f.put v) = v :=
  BitVec.eq_of_toNat_eq ((f.get_put_toNat v).trans (Nat.mod_eq_of_lt h))

theorem disableBit_lt (b : Bool) : (disableBit b).toNat < 2 := by cases b <;> decide

theorem disableBit_eq_zero_iff (b : Bool) : disableBit b = 0 ↔ b = true := by cases b <;> decide

/-- The three fields of the power-control byte are read back one by one. -/
theorem get_pack_powerCtl (s : Settings) :
    Field.mode.get (pack s).powerCtl = s.mode.code ∧
    Field.hpfDisable.get (pack s).powerCtl = disableBit s.hpfEn ∧
    Field.lpfDisable.get (pack s).powerCtl = disableBit s.lpfEn := by
  have hmode : Field.mode.get (Field.mode.put s.mode.code) = s.mode.code :=
    Field.get_put_of_lt (Nat.lt_succ_of_le s.mode.code_le)
  have hhpf : Field.hpfDisable.get (Field.hpfDisable.put (disableBit s.hpfEn)) = disableBit s.hpfEn :=
    Field.get_put_of_lt (disableBit_lt _)
  have hlpf : Field.lpfDisable.get (Field.lpfDisable.put (disableBit s.lpfEn)) = disableBit s.lpfEn :=
    Field.get_put_of_lt (disableBit_lt _)
  simp only [pack, Field.get_or, hmode, hhpf, hlpf]
  refine ⟨?_, ?_, ?_⟩
  · rw [Field.get_put_other (f := .mode) (g := .hpfDisable) (by decide) rfl,
      Field.get_put_other (f := .mode) (g := .lpfDisable) (by decide) rfl]
    simp
  · rw [Field.get_put_other (f := .hpfDisable) (g := .mode) (by decide) rfl,
      Field.get_put_other (f := .hpfDisable) (g := .lpfDisable) (by decide) rfl]
    simp
  · rw [Field.get_put_other (f := .lpfDisable) (g := .mode) (by decide) rfl,
      Field.get_put_other (f := .lpfDisable) (g := .hpfDisable) (by decide) rfl]
    simp

theorem unpack_pack (s : Settings) : unpack (pack s) = some s := by
  obtain ⟨hmode, hhpf, hlpf⟩ := get_pack_powerCtl s
  have hodr : Field.odr.get (pack s).timing = s.odr.code :=
    Field.get_put_of_lt (lt_of_le_of_lt s.odr.code_le (by decide))
  have hbw : Field.bandwidth.get (pack s).measure = s.bw.code :=
    Field.get_put_of_lt (lt_of_le_of_lt s.bw.code_le (by decide))
  rw [unpack_eq_some_iff, hodr, hbw, hmode, hhpf, hlpf]
  simp only [disableBit_eq_zero_iff, Odr.ofCode_code, Bw.ofCode_code, PMode.ofCode_code, Bool.decide_eq_true, and_self]

/-- A byte is its part inside a mask exactly when its part outside is 0. -/
theorem and_eq_self_iff (b m : Byte) : b &&& m = b ↔ b &&& ~~~m = 0 := by
  constructor
  · intro h
    rw [← h, BitVec.and_assoc, BitVec.and_not_self]
    simp
  · intro h
    calc b &&& m = (b &&& m) ||| (b &&& ~~~m) := by rw [h]; simp
      _ = b &&& (m ||| ~~~m) := BitVec.and_or_distrib_left.symm
      _ = b := by rw [BitVec.or_not_self, BitVec.and_allOnes]

theorem Field.get_bit {f : Field} (hw : f.pos.width = 1) (b : Byte) : f.get b = 0 ∨ f.get b = 1 := by
  cases f with
  | hpfDisable => revert b; decide
  | lpfDisable => revert b; decide
  | _ => exact absurd hw (by decide)

/-- The disable bit is what was read from it. -/
theorem disableBit_of_get {f : Field} {b : Byte} {en : Bool} (hw : f.pos.width = 1) (h : en = true ↔ f.get b = 0) :
    disableBit en = f.get b := by
  cases en with
  | true => exact (h.mp rfl).symm
  | false =>
    rcases Field.get_bit hw b with hzero | hone
    · exact absurd (h.mpr hzero) (by simp)
    · exact hone.symm

/-- Packing what was unpacked clears the bits that the table does not name, and no others. -/
theorem pack_of_unpack {k : Packed} {s : Settings} (h : unpack k = some s) :
    pack s = ⟨k.timing &&& 0xE0, k.measure &&& 0x07, k.powerCtl &&& 0x0F⟩ := by
  obtain ⟨hodr, hbw, hmode, hhpf, hlpf⟩ := unpack_fields h
  have hpower : k.powerCtl &&& 0x03 ||| k.powerCtl &&& 0x04 ||| k.powerCtl &&& 0x08 = k.powerCtl &&& 0x0F := by
    rw [← BitVec.and_or_distrib_left, ← BitVec.and_or_distrib_left]
    rfl
  rw [pack, hodr, hbw, hmode, disableBit_of_get rfl hhpf, disableBit_of_get rfl hlpf]
  simp only [Field.put_get]
  exact congrArg (Packed.mk _ _) hpower

/-- Settles O26: reading by `unpack_eq_none_iff` and `unpack_fields`, the round trip field by field, and its converse by
the masks of each byte. -/
theorem unpackRecoversSettings : Obligations.UnpackRecoversSettings := by
  refine ⟨unpack_eq_none_iff, fun _ _ => unpack_fields, unpack_pack, fun k s h => ?_⟩
  obtain ⟨t, m, w⟩ := k
  rw [pack_of_unpack h, Packed.mk.injEq, and_eq_self_iff, and_eq_self_iff, and_eq_self_iff]
  rfl

/-! ### Legality in Hz -/

/-- Settles O27: both frequencies are `200` times a power of two, so the comparison is that of the exponents. -/
theorem legalMeansBandwidthAtMostHalfTheRate : Obligations.LegalMeansBandwidthAtMostHalfTheRate := by
  intro s
  calc legal s = true ↔ s.bw.code.toNat ≤ s.odr.code.toNat := legal_iff s
    _ ↔ 2 ^ s.bw.code.toNat ≤ 2 ^ s.odr.code.toNat := (Nat.pow_le_pow_iff_right (by omega)).symm
    _ ↔ 2 * s.bw.hz ≤ s.odr.hz := by rw [Bw.hz, Odr.hz]; omega

end Sys2Proof
end

section
/-! PROOF. The delay (10_state.md R31), the fault of a `BUS_ERROR` (30_encoding.md R88), the lanes of a conversion
(43_conversion.md R190) and the exact product (R187). -/

namespace Sys2Proof.Machine

/-- Settles O17: a delay whose provider is not silent. -/
theorem delayIsRecordedWithItsDuration : Obligations.DelayIsRecordedWithItsDuration := fun _ _ => delay_of_answering

/-- Settles O58: both functions at `BUS_ERROR`. -/
theorem busErrorsHaveNoDataBytes : Obligations.BusErrorsHaveNoDataBytes := fun _ => ⟨rfl, rfl⟩

/-! ### Conversion and scaling -/

/-- Settles O50: each lane is the axis value of its pair. -/
theorem lanesAreIndependent : Obligations.LanesAreIndependent := fun p _ _ =>
  ⟨congrArg₂ (axisValue p), congrArg₂ (axisValue p), congrArg₂ (axisValue p)⟩

/-- The product of a 16-bit value and a sensitivity below `2^16` fits 32 bits. -/
theorem product_bounds (v : I16) {n : Nat} (hn : n < 2 ^ 16) :
    -2 ^ 31 ≤ v.toInt * n ∧ v.toInt * n < 2 ^ 31 := by
  have hlo : -32768 ≤ v.toInt := BitVec.le_toInt v
  have hhi : v.toInt ≤ 32767 := Int.le_of_lt_add_one (BitVec.toInt_lt (x := v))
  have hn' : (n : Int) ≤ 65535 := by omega
  constructor <;> nlinarith

theorem scaleValue_toInt {p : Params} (v : I16) (hs : p.sens < 2 ^ 16) :
    (scaleValue p v).toInt = v.toInt * p.sens := by
  obtain ⟨hlo, hhi⟩ := product_bounds v hs
  exact BitVec.toInt_ofInt_eq_self (by decide) hlo hhi

/-- Settles O47: the product is in the range of 32 bits; the decided sensitivity is 100. -/
theorem scalingIsExact : Obligations.ScalingIsExact :=
  ⟨fun _ v hs => scaleValue_toInt v hs, fun q v => scaleValue_toInt (p := Params.decided q) v (by
    change 100 < 2 ^ 16
    decide)⟩

end Sys2Proof.Machine
end

section
/-! PROOF. Builder requests and device requests do not see each other's fields (10_state.md R25, 41_config.md section
3): each gives the same next state when the fields of the other kind are replaced. -/

namespace Sys2Proof.Machine

/-! ### Builder requests -/

/-- What a builder request answers (41_config.md R135 to R141). -/
def builderResponse (i : Instr) (x : Settings) : Response :=
  match i with
  | .cfgBuild => if legal x then .ok (pack x).bytes else .invalidConfig
  | _ => .ok []

/-- A builder request writes its row of `State.written` and ends, whatever the rest of the state. -/
theorem exec_builder {i : Instr} (hi : i.isBuilder = true) (s : State) (o : ReqOutcome) :
    exec i s = .next ((s.written i o).present (builderResponse i s.stg)) := by
  cases i with
  | cfgNew => rfl
  | cfgOdr c => rfl
  | cfgBw c => rfl
  | cfgPmode c => rfl
  | cfgHpf b => rfl
  | cfgLpf b => rfl
  | cfgBuild =>
    cases hl : legal s.stg with
    | true => simp [exec_cfgBuild_legal hl, State.written, builderResponse, hl, State.respond_eq]
    | false => simp [exec_cfgBuild_illegal hl, State.written, builderResponse, hl, State.raise_eq, ErrorKind.response]
  | _ => simp [Instr.isBuilder] at hi

/-- The state with another device. -/
def State.withDevice (s : State) (d : DevState) (c : Option BuiltConfig) : State := { s with dev := d, devCfg := c }

theorem written_withDevice {i : Instr} (hi : i.isBuilder = true) (s : State) (o : ReqOutcome) (d : DevState)
    (c : Option BuiltConfig) : (s.withDevice d c).written i o = (s.written i o).withDevice d c := by
  cases i with
  | devNew | devInit | devDrop => simp [Instr.isBuilder] at hi
  | _ => rfl

theorem written_device_of_builder {i : Instr} (hi : i.isBuilder = true) (s : State) (o : ReqOutcome) :
    (s.written i o).dev = s.dev ∧ (s.written i o).devCfg = s.devCfg ∧ (s.written i o).trace = s.trace := by
  cases i with
  | devNew | devInit | devDrop => simp [Instr.isBuilder] at hi
  | _ => exact ⟨rfl, rfl, rfl⟩

/-- Settles O32: `exec_builder` on the state and on the state with another device. -/
theorem builderRequestsIgnoreBusAndDevice : Obligations.BuilderRequestsIgnoreBusAndDevice := by
  intro i s d c hi
  obtain ⟨hdev, hdevCfg, htrace⟩ := written_device_of_builder hi s .pending
  refine ⟨_, _, exec_builder hi s .pending, rfl, by simp [htrace], hdev, hdevCfg, by simp, by simp, ?_⟩
  change exec i (s.withDevice d c) = _
  rw [exec_builder hi (s.withDevice d c) .pending, written_withDevice hi]
  rfl

/-! ### Device requests -/

/-- The state with another staging and built config. -/
def State.withBuilder (s : State) (x : Settings) (c : Option BuiltConfig) : State := { s with stg := x, cfg := c }

section
variable (x : Settings) (c : Option BuiltConfig)

/-- The same answer in a state with another staging and built config. -/
def Reply.withBuilder {α : Type} (r : Reply α) : Reply α := (r.1, r.2.withBuilder x c)

theorem memRead_withBuilder (a n : Nat) (s : State) :
    memRead a n (s.withBuilder x c) = (memRead a n s).withBuilder x c := by
  have hans : (s.withBuilder x c).readAnswer a n = s.readAnswer a n := rfl
  cases h : s.readAnswer a n with
  | none => rw [memRead_of_silent h, memRead_of_silent (hans.trans h)]; rfl
  | some y => rw [memRead_of_answer h, memRead_of_answer (hans.trans h)]; rfl

theorem memWrite_withBuilder (a : Nat) (v : Byte) (s : State) :
    memWrite a v (s.withBuilder x c) = (memWrite a v s).withBuilder x c := by
  have hans : (s.withBuilder x c).writeAnswer a v = s.writeAnswer a v := rfl
  cases h : s.writeAnswer a v with
  | none => rw [memWrite_of_silent h, memWrite_of_silent (hans.trans h)]; rfl
  | some y => rw [memWrite_of_answer h, memWrite_of_answer (hans.trans h)]; rfl

theorem delay_withBuilder (ms : Nat) (s : State) :
    delay ms (s.withBuilder x c) = (delay ms s).withBuilder x c := by
  have hsame : (s.withBuilder x c).portSilent = s.portSilent := rfl
  cases h : s.portSilent with
  | true => rw [delay_of_silent h, delay_of_silent (hsame.trans h)]; rfl
  | false => rw [delay_of_answering h, delay_of_answering (hsame.trans h)]; rfl

theorem andThen_withBuilder {α β : Type} {r : Reply α} {k : α → State → Reply β}
    (hk : ∀ a u, k a (u.withBuilder x c) = (k a u).withBuilder x c) :
    (r.withBuilder x c).andThen k = (r.andThen k).withBuilder x c := by
  obtain ⟨y, u⟩ := r
  rcases y with _ | (a | e)
  case none => rfl
  case some.ok => exact hk a u
  case some.err => rfl

theorem finish_withBuilder {α : Type} {r : Reply α} {k : α → State → State}
    (hk : ∀ a u, k a (u.withBuilder x c) = (k a u).withBuilder x c) :
    (r.withBuilder x c).finish k = (r.finish k).withBuilder x c := by
  obtain ⟨y, u⟩ := r
  rcases y with _ | (a | e)
  case none => rfl
  case some.ok => exact hk a u
  case some.err => rfl

theorem tRead_withBuilder (a : Nat) (s : State) : tRead a (s.withBuilder x c) = (tRead a s).withBuilder x c := by
  rw [tRead, memRead_withBuilder, andThen_withBuilder x c fun _ _ => rfl]
  rfl

theorem seqRead_withBuilder (a n : Nat) (s : State) :
    seqRead a n (s.withBuilder x c) = (seqRead a n s).withBuilder x c := by
  induction n with
  | zero => rfl
  | succ n ih =>
    rw [seqRead, ih, andThen_withBuilder x c fun out u => ?_]
    · rfl
    · rw [memRead_withBuilder, andThen_withBuilder x c fun _ _ => rfl]

theorem tBurst_withBuilder (a n : Nat) (s : State) :
    tBurst a n (s.withBuilder x c) = (tBurst a n s).withBuilder x c := by
  have hsame : (s.withBuilder x c).params.framed = s.params.framed := rfl
  cases hf : s.params.framed with
  | true => rw [tBurst_framed hf, tBurst_framed (hsame.trans hf), memRead_withBuilder]
  | false => rw [tBurst_unframed hf, tBurst_unframed (hsame.trans hf), seqRead_withBuilder]

theorem writeAll_withBuilder (ws : List (Nat × Byte)) (s : State) :
    writeAll ws (s.withBuilder x c) = (writeAll ws s).withBuilder x c := by
  induction ws generalizing s with
  | nil => rfl
  | cons w ws ih =>
    rw [writeAll, tWrite, memWrite_withBuilder, andThen_withBuilder x c fun _ u => ih u]
    rfl

theorem settle_withBuilder (s : State) : settle (s.withBuilder x c) = (settle s).withBuilder x c := by
  rw [settle, delay_withBuilder, finish_withBuilder x c fun _ _ => rfl]
  rfl

theorem configure_withBuilder (b : BuiltConfig) (s : State) :
    configure b (s.withBuilder x c) = (configure b s).withBuilder x c := by
  rw [configure, writeAll_withBuilder, finish_withBuilder x c fun _ u => settle_withBuilder x c u]
  rfl

theorem initSequence_withBuilder (b : BuiltConfig) (s : State) :
    initSequence b (s.withBuilder x c) = (initSequence b s).withBuilder x c := by
  have hset : (s.withBuilder x c).setDev .uninitialized = (s.setDev .uninitialized).withBuilder x c := rfl
  rw [initSequence, hset, tRead_withBuilder, finish_withBuilder x c fun b' u => ?_]
  · rfl
  · split
    · exact configure_withBuilder x c b u
    · rfl

end

/-- Settles O43: each of the three requests, by the state of the device, commutes with replacing the builder's
fields. -/
theorem deviceRequestsIgnoreTheBuilder : Obligations.DeviceRequestsIgnoreTheBuilder := by
  intro i s t x c hi h
  change exec i (s.withBuilder x c) = .next (t.withBuilder x c)
  rcases refused_or_not h with ⟨why, hwhy, rfl⟩ | hr
  · have hsame : refusalOf i (s.withBuilder x c) = refusalOf i s := by rcases hi with rfl | rfl | rfl <;> rfl
    exact exec_refused (hsame.trans hwhy)
  rcases hi with rfl | rfl | rfl
  · obtain ⟨b, hb, rfl⟩ := exec_devInit_next hr h
    have hd : (s.withBuilder x c).dev ≠ .noDevice := refusalOf_devInit_none hr
    rw [exec_devInit_device hd hb, initSequence_withBuilder]
  · cases hd : s.dev with
    | noDevice => simp [refusalOf, hd] at hr
    | uninitialized =>
      cases (exec_devReadxyz_uninitialized hd).symm.trans h
      exact exec_devReadxyz_uninitialized hd
    | ready =>
      cases (exec_devReadxyz_ready hd).symm.trans h
      have hd' : (s.withBuilder x c).dev = .ready := hd
      rw [exec_devReadxyz_ready hd', ← finish_withBuilder x c fun _ _ => rfl, ← tBurst_withBuilder]
      rfl
  · have hd : s.dev ≠ .noDevice := by simpa [refusalOf] using hr
    have hd' : (s.withBuilder x c).dev ≠ .noDevice := hd
    cases (exec_devDrop_device hd).symm.trans h
    exact exec_devDrop_device hd'

end Sys2Proof.Machine
end
